-- ==== Sys2Proof/Word.lean ====
section
/-! DEFINITION. The one word type of the hardware: the byte (`00_scope.md` R17). -/

namespace Sys2Proof

/-- A byte, an unsigned integer 0 to 255, bit 7 the most significant (R17). -/
abbrev Byte := BitVec 8

end Sys2Proof
end

