-- ==== Sys2Proof/Config.lean ====
section
/-! DEFINITION. What an instance of the hardware fixes (its parameters) and the free values, which the spec
leaves open and nothing in Lean can evaluate. -/

namespace Sys2Proof

/-- The parameters of an instance: constants, not registers (`10_state.md` R39). They stand in State, where no
operation writes them, so that a statement about every state is one about every value of them. -/
structure Params where
  /-- MAX_FRAME_SIZE (R10). -/
  maxFrameSize : Nat
  /-- HEADER_LENGTH (R11). -/
  headerLength : Nat
deriving DecidableEq, Repr

/-- Free value: the byte an accumulator that holds no value reads as (R25, R31, U13; log 6). -/
opaque Config.freeByte : Nat → Byte

/-- Free value: what the packet store answers to a request of the given length once the listed answers are used up:
the number of a handle, or nothing for FAIL (R64, U4; log 5). -/
opaque Config.freeAnswer : Nat → Nat → Option Nat

/-- Free value: which of two pending events the machine serves first when no agent has a move (R272, U11; log 7). -/
opaque Config.freeBit : Nat → Bool

end Sys2Proof
end

