-- ==== Sys2Proof/Syntax.lean ====
section
/-! DEFINITION. The operations of the hardware, one constructor per row of `spec/opcode_table.json`
(`30_encoding.md` R115), and the calls and moves a program is made of (`43_system.md` R233). -/

namespace Sys2Proof

/-- A packet handle: an opaque identity, compared only for equality and against NONE (`10_state.md` R41). -/
structure Handle where
  id : Nat
deriving DecidableEq, Repr

/-- The function given to SYS.INIT, as an opaque identity (`10_state.md` R38, log 12). -/
structure Callback where
  id : Nat
deriving DecidableEq, Repr

/-- The two checksum accumulators (`40_checksum.md` R130). -/
inductive Acc where
  | tx | rx
deriving DecidableEq, Repr

/-- The two queues (`10_state.md` R40). -/
inductive QName where
  | txq | rxq
deriving DecidableEq, Repr

/-- What FG.QUERY can ask (`43_system.md` R226). -/
inductive QueryFn where
  | isEmpty | isFull | size
deriving DecidableEq, Repr

/-- The three execution contexts (`60_exceptions.md` R276). -/
inductive Ctx where
  | fg | txi | rxi
deriving DecidableEq, Repr

/-- The two interrupt sources (`60_exceptions.md` R269, R270). -/
inductive Source where
  | txrdy | rxrdy
deriving DecidableEq, Repr

/-- The operations, in the order of the table. -/
inductive Instr where
  | csumSeed (a : Acc) (b : Byte)
  | csumAcc (a : Acc) (b : Byte)
  | csumCompl (a : Acc)
  | csumPair (a : Acc) (b : Byte)
  | csumMatch (a : Acc) (b : Byte)
  | txSubmitReject (p : Option Handle)
  | txSubmitAccept (p : Handle)
  | txAdvIdle
  | txAdvSizecheck
  | txAdvBody
  | txAdvTrailer
  | rxIdleAccept (b : Byte)
  | rxIdleDiscard (b : Byte)
  | rxAwaitValid (b : Byte)
  | rxAwaitNobuf (b : Byte)
  | rxAwaitResync (b : Byte)
  | rxBodyStore (b : Byte)
  | rxBodyGood (b : Byte)
  | rxBodyGoodQfull (b : Byte)
  | rxBodyBad (b : Byte)
  | rxDrain
  | rxOvrClear
  | sysInit (txqCap rxqCap : Nat) (cb : Callback)
  | sysCritEnter
  | sysCritLeave
  | fgSend (p : Handle)
  | fgProcess
  | fgRecv
  | fgQuery (q : QName) (f : QueryFn)
  | storeRequest (c : Ctx) (d : Nat)
  | storeReturn (c : Ctx) (p : Handle)
  | qAddtail (q : QName) (p : Handle)
  | qRemhead (q : QName)
  | qRemtail (q : QName)
  | qIsempty (q : QName)
  | qIsfull (q : QName)
  | qSize (q : QName)
  | chWrite (b : Byte)
  | chAvail
  | chRead
  | chOvrclr
  | chIrqen (src : Source) (on : Bool)
  | envRxbyte (b : Byte)
  | envRxlose
  | envTxrdy
  | envRxrdy
deriving DecidableEq, Repr

/-- What an agent can call, with the operands that are not bytes (R114, R117). `txSubmit`, `txAdv` and `rxByte` are the
three families whose row the state selects; every other entry is one row. -/
inductive Entry where
  | csumSeed (a : Acc)
  | csumAcc (a : Acc)
  | csumCompl (a : Acc)
  | csumPair (a : Acc)
  | csumMatch (a : Acc)
  | txSubmit (p : Option Handle)
  | txAdv
  | rxByte
  | rxDrain
  | rxOvrClear
  | sysInit (txqCap rxqCap : Nat) (cb : Callback)
  | sysCritEnter
  | sysCritLeave
  | fgSend (p : Handle)
  | fgProcess
  | fgRecv
  | fgQuery (q : QName) (f : QueryFn)
  | storeRequest (c : Ctx) (d : Nat)
  | storeReturn (c : Ctx) (p : Handle)
  | qAddtail (q : QName) (p : Handle)
  | qRemhead (q : QName)
  | qRemtail (q : QName)
  | qIsempty (q : QName)
  | qIsfull (q : QName)
  | qSize (q : QName)
  | chWrite
  | chAvail
  | chRead
  | chOvrclr
  | chIrqen (src : Source) (on : Bool)
  | envRxbyte
  | envRxlose
  | envTxrdy
  | envRxrdy
deriving DecidableEq, Repr

/-- One call: the entry, and the bytes the operation consumes (R116: the pattern of the one byte operand, or the empty
string where the operation has none). -/
structure Call where
  entry : Entry
  bytes : List Byte
deriving DecidableEq, Repr

/-- One move of a run (R233): a call, or the foreground's own access to a cell of a packet it owns, which the table
gives no row (R62, R227; log 20). -/
inductive Move where
  | call (c : Call)
  | write (p : Handle) (off : Nat) (v : Byte)
  | read (p : Handle) (off : Nat)
deriving DecidableEq, Repr

/-- Why a call selects no operation of the table. -/
inductive Reject where
  /-- The operation consumes one byte and the call carries none. -/
  | missingByte
  /-- The call carries more bytes than the operation consumes. -/
  | extraBytes
  /-- The table does not let this context invoke the operation (STORE.REQUEST by TX, R115). -/
  | notACaller
  /-- No row of the map has its state and guard met: RX.OVR.CLEAR with no overrun, SYS.INIT on an initialised block (R115,
  R116). -/
  | noRow
deriving DecidableEq, Repr

end Sys2Proof
end

