-- ==== Sys2Proof/Machine/Operands.lean ====
section
/-! DEFINITION. Operand assembly (`30_encoding.md` R108): every number the block derives from its parameters, from
frame bytes and from packet lengths. Unsigned natural arithmetic. -/

namespace Sys2Proof

/-- FRAMING_BYTES: Size, SizeCheck and Checksum (R13). -/
def framingBytes : Nat := 3

/-- MIN_FRAME_SIZE (R13). -/
def Params.minFrameSize (k : Params) : Nat := framingBytes + k.headerLength

/-- MAX_RX_PAYLOAD (R13). -/
def Params.maxRxPayload (k : Params) : Nat := k.maxFrameSize - 4

/-- MAX_TX_PAYLOAD (R13). -/
def Params.maxTxPayload (k : Params) : Nat := k.maxFrameSize - 1

/-- The constraint on the parameters (R10, R11). -/
def Params.ok (k : Params) : Bool := decide (k.minFrameSize < k.maxFrameSize) && decide (k.maxFrameSize ≤ 253)

/-- `b < MAX_FRAME_SIZE`, the test of RX_IDLE (R182). -/
def Params.belowMax (k : Params) (b : Byte) : Bool := decide (b.toNat < k.maxFrameSize)

/-- `in_bounds(s)`: MIN_FRAME_SIZE ≤ s < MAX_FRAME_SIZE (R184). -/
def Params.inBounds (k : Params) (b : Byte) : Bool := decide (k.minFrameSize ≤ b.toNat) && k.belowMax b

/-- The request length `d = rx_size - HEADER_LENGTH - 3` (R108, R185). -/
def Params.requestLength (k : Params) (size : Byte) : Nat := size.toNat - k.headerLength - framingBytes

/-- The Size byte of a payload of length `n`: `n + 3` (R102). -/
def sizeByte (n : Nat) : Byte := BitVec.ofNat 8 (n + framingBytes)

/-- SizeCheck, the bitwise complement of Size (R103). -/
def complByte (b : Byte) : Byte := ~~~b

/-- The pair test `(c XOR b) = 0xFF` (R134). -/
def pairTest (c b : Byte) : Bool := (c ^^^ b) == 0xFF#8

/-- The accumulator after one byte: `(c + b) mod 256`, the carry dropped (R132). -/
def accByte (c b : Byte) : Byte := c + b

/-- The sum of a payload as a natural (R17). -/
def byteSum (bytes : List Byte) : Nat := (bytes.map BitVec.toNat).sum

/-- The closed form of the Checksum: `(255 + sum(P)) mod 256` (R139). -/
def checksumOf (payload : List Byte) : Byte := BitVec.ofNat 8 (255 + byteSum payload)

/-- The encoding function `frame(P) = [L + 3, 255 - (L + 3)] ++ P ++ [(255 + sum(P)) mod 256]` (R106). -/
def frame (payload : List Byte) : List Byte :=
  [BitVec.ofNat 8 (payload.length + 3), BitVec.ofNat 8 (255 - (payload.length + 3))] ++ payload ++ [checksumOf payload]

end Sys2Proof
end

