-- ==== Sys2Proof/Machine/State.lean ====
section
/-! DEFINITION. The state of the machine as plain data (`10_state.md` R20), the reasons a step can stop, and the state
right after reset (R46). -/

namespace Sys2Proof.Machine

/-- `tx_state`: names, not numbers (R21, R44). -/
inductive TxState where
  | idle | sendingSize | sendingBody
deriving DecidableEq, Repr

/-- `rx_state`: names, not numbers (R26, R44). -/
inductive RxState where
  | idle | awaitSizecheck | receivingBody
deriving DecidableEq, Repr

/-- Who owns a packet (R42). -/
inductive Owner where
  | store | tx | rx | txq | rxq | fg
deriving DecidableEq, Repr

/-- The error outcomes (`60_exceptions.md` R260), with what their rule puts beside the name (R186, R191). -/
inductive ErrorOutcome where
  | framing
  | checksum (got expected : Byte)
  | nobuf (size : Byte)
  | qfull
  | submitBusy
  | submitNull
  | submitOversize
deriving DecidableEq, Repr

/-- The externally visible events (R43). CALLBACK also names the registered function that ran (log 12). -/
inductive Event where
  | wireOut (b : Byte)
  | wireIn (b : Byte)
  | storeReq (d : Nat) (r : Option Handle)
  | storeRet (p : Handle)
  | qAdd (q : QName) (p : Handle) (ok : Bool)
  | qRem (q : QName) (r : Option Handle)
  | callback (cb : Callback) (p : Handle) (bytes : List Byte)
  | ovrClear
  | outcome (e : ErrorOutcome)
deriving DecidableEq, Repr

/-- What an operation returned to its caller (`00_scope.md` R18 "return v"); `handle none` is FAIL or EMPTY. -/
inductive Result where
  | none
  | bit (b : Bool)
  | byte (b : Byte)
  | nat (n : Nat)
  | handle (h : Option Handle)
deriving DecidableEq, Repr

/-- A packet that is not in the store: its owner (R42), its declared length (R41) and its written cells, offsets strictly
rising; a cell not listed is unwritten and holds no value (R63). -/
structure Packet where
  owner : Owner
  len : Nat
  cells : List Host.Cell
deriving DecidableEq, Repr

/-- The packets that are not the store's, by handle, handles strictly rising. A handle not listed is the store's. -/
abbrev Memory := List (Nat × Packet)

/-- Why the machine stops with a fault. All are faults of the model and not outcomes of the hardware (R268); each is safe:
the model stops where the spec gives the access no meaning. -/
inductive Fault where
  /-- Raised by every access to a packet by who does not own it (R90, R268, U17). Safe. -/
  | notOwner
  /-- Raised by STORE.RETURN and every returnPacket of a handle the caller does not own (R65, U16). Safe. -/
  | returnByNonOwner
  /-- Raised by a cell access at an offset not below the packet's length (R62). Safe. -/
  | outOfRange
  /-- Raised by TX.ADV.BODY, the callback and the foreground's read on a cell nothing has written (R63, U14). Safe. -/
  | unwrittenCell
  /-- Raised by CH.READ on an empty buffer (R75, U15). Safe. -/
  | emptyRead
  /-- Raised by a TX or RX operation whose rule would read tx_pkt, tx_off, rx_pkt, rx_off or rx_size where it holds no value
  (R25, R31, U13), in states no run reaches. Safe. -/
  | noRegisterValue
deriving DecidableEq, Repr

/-- Why the machine refuses an operation. Each is safe. -/
inductive Refusal where
  /-- Raised by an arm of `exec` whose operation has no meaning yet. Safe. -/
  | notModelled (mnemonic : String)
  /-- Raised by every operation but SYS.INIT before SYS.INIT (R47, U18). Safe. -/
  | uninitialised
  /-- Raised by a second SYS.INIT (R47, R304, U18). Safe. -/
  | alreadyInitialised
  /-- Raised by every operation of an instance whose parameters do not meet their constraint (R10, U1). Safe. -/
  | badParameters
  /-- Raised by an operation run in a state whose guard does not select it (R115). Safe. -/
  | notSelected
  /-- Raised by TX.ADV and RX.DRAIN while their enable is 0 (R37, R86). Safe. -/
  | handlerHeld
  /-- Raised by TX.SUBMIT.ACCEPT of the very packet the idle machine still marks as held (R153, U19), where the submitter
  may submit it; while TX still owns it, it faults as notOwner before that (log 24). Safe. -/
  | danglingResubmit
  /-- Raised by STORE.REQUEST invoked by TX (R115). Safe. -/
  | notACaller
  /-- Raised by the step for a call that is no operation of the table. Safe. -/
  | undecodable (r : Reject)
deriving DecidableEq, Repr

/-- Everything the spec gives the machine (R20), and four fields of the model's own (`result`, `storeInput`, `freeCtr`,
`program`). -/
structure State where
  /-- The parameters of the instance (R10, R11); no operation writes them. -/
  params : Params
  /-- Whether SYS.INIT has run (R47). -/
  initialised : Bool
  /-- `tx_state` (R21). -/
  txState : TxState
  /-- `tx_pkt` (R22); `none` is NONE. -/
  txPkt : Option Handle
  /-- `tx_off` (R23); `none` where it holds no value (R25). -/
  txOff : Option Nat
  /-- `tx_csum` (R24); `none` where it holds no value (R25). -/
  txCsum : Option Byte
  /-- `rx_state` (R26). -/
  rxState : RxState
  /-- `rx_pkt` (R27); `none` is NONE. -/
  rxPkt : Option Handle
  /-- `rx_off` (R28); `none` where it holds no value (R31). -/
  rxOff : Option Nat
  /-- `rx_csum` (R29); `none` where it holds no value (R31). -/
  rxCsum : Option Byte
  /-- `rx_size` (R30); `none` where it holds no value (R31). -/
  rxSize : Option Byte
  /-- `chan_ovr` (R34). -/
  chanOvr : Bool
  /-- `chan_rxbuf` (R35), oldest byte first. -/
  chanRxbuf : List Byte
  /-- `txrdy_pending` (R36). -/
  txrdyPending : Bool
  /-- `rxrdy_pending` (R36). -/
  rxrdyPending : Bool
  /-- `irq_tx_en` (R37). -/
  irqTxEn : Bool
  /-- `irq_rx_en` (R37). -/
  irqRxEn : Bool
  /-- `rx_callback` (R38). -/
  rxCallback : Callback
  /-- TXQ_CAP (R12). -/
  txqCap : Nat
  /-- `txq` (R40), head first. -/
  txq : List Handle
  /-- RXQ_CAP (R12). -/
  rxqCap : Nat
  /-- `rxq` (R40), head first. -/
  rxq : List Handle
  /-- The packets and who owns them (R41, R42). -/
  packets : Memory
  /-- The event trace (R43), oldest first. -/
  trace : List Event
  /-- What the last operation returned to its caller (R18; log 13). -/
  result : Result
  /-- The answers the packet store gives to the next requests (R64; log 5). -/
  storeInput : List (Option Handle)
  /-- The counter the free values of Config are applied to (log 5, 6, 7). -/
  freeCtr : Nat
  /-- The moves still to come (R233; log 4). -/
  program : List Move
deriving DecidableEq, Repr

/-- A block before SYS.INIT: both interrupt sources disabled (R302), the foreground and the store holding what they hold.
The values of the fields R47 gives none are DESIGN CHOICE (log 23); SYS.INIT writes every one of them that it may. -/
def State.powerOn : State where
  params := ⟨200, 1⟩
  initialised := false
  txState := .idle
  txPkt := none
  txOff := none
  txCsum := none
  rxState := .idle
  rxPkt := none
  rxOff := none
  rxCsum := none
  rxSize := none
  chanOvr := false
  chanRxbuf := []
  txrdyPending := false
  rxrdyPending := false
  irqTxEn := false
  irqRxEn := false
  rxCallback := ⟨0⟩
  txqCap := 0
  txq := []
  rxqCap := 0
  rxq := []
  packets := []
  trace := []
  result := .none
  storeInput := []
  freeCtr := 0
  program := []

/-- The machine right after reset, that is after SYS.INIT (R46, R300). DESIGN CHOICE: the parameters 200 and 1 (log 1),
the capacities 4 and 4 and the callback (log 2), and the channel's fields, which R46 leaves at any value (log 3). -/
def State.reset : State where
  params := ⟨200, 1⟩
  initialised := true
  txState := .idle
  txPkt := none
  txOff := none
  txCsum := none
  rxState := .idle
  rxPkt := none
  rxOff := none
  rxCsum := none
  rxSize := none
  chanOvr := false
  chanRxbuf := []
  txrdyPending := false
  rxrdyPending := false
  irqTxEn := true
  irqRxEn := true
  rxCallback := ⟨0⟩
  txqCap := 4
  txq := []
  rxqCap := 4
  rxq := []
  packets := []
  trace := []
  result := .none
  storeInput := []
  freeCtr := 0
  program := []

end Sys2Proof.Machine
end

