-- ==== Sys2Proof/Machine/Ops.lean ====
section
/-! DEFINITION. The named operations over memory, registers, queues and the channel, which every meaning is made of;
and raising an error outcome, the one thing this hardware has in place of taking an exception. -/

namespace Sys2Proof.Machine

/-- The outcome of an operation. -/
abbrev Res := Host.Outcome State Fault Refusal

/-- Go on after an operation that answered a next state. -/
def andThen (r : Res) (k : State → Res) : Res :=
  match r with
  | .next s => k s
  | .fault f => .fault f
  | .refused f => .refused f

/-! ### Lists of key and value pairs, keys strictly rising -/

/-- The value listed under a key. -/
def lookup {α : Type} (k : Nat) : List (Nat × α) → Option α
  | [] => none
  | e :: l => if e.1 = k then some e.2 else lookup k l

/-- Take out the entries of a key. -/
def erase {α : Type} (k : Nat) : List (Nat × α) → List (Nat × α)
  | [] => []
  | e :: l => if e.1 = k then erase k l else e :: erase k l

/-- Put an entry before the first greater key. -/
def place {α : Type} (k : Nat) (v : α) : List (Nat × α) → List (Nat × α)
  | [] => [(k, v)]
  | e :: l => if k < e.1 then (k, v) :: e :: l else e :: place k v l

/-- List a value under a key, in place of any value listed there. -/
def update {α : Type} (k : Nat) (v : α) (l : List (Nat × α)) : List (Nat × α) :=
  place k v (erase k l)

/-- Keys strictly rising. -/
def rising {α : Type} : List (Nat × α) → Bool
  | [] => true
  | [_] => true
  | a :: b :: l => decide (a.1 < b.1) && rising (b :: l)

/-! ### Packets -/

/-- The canonical form of the memory: handles strictly rising, none of them the store's, the cells of each strictly rising
and below the packet's length. -/
def Memory.wf (m : Memory) : Bool :=
  rising m && m.all fun e => e.2.owner != .store && rising e.2.cells && e.2.cells.all fun c => decide (c.1 < e.2.len)

/-- `owner(p)` (R42); a handle not listed is the store's. -/
def Memory.ownerOf (m : Memory) (p : Handle) : Owner :=
  match lookup p.id m with
  | some k => k.owner
  | none => .store

/-- `len(p)` (R41); a packet in the store has none. -/
def Memory.lenOf (m : Memory) (p : Handle) : Option Nat :=
  match lookup p.id m with
  | some k => some k.len
  | none => none

/-- The byte in cell `(p, i)`, nothing where the cell is unwritten (R61, R63). -/
def Memory.cell (m : Memory) (p : Handle) (i : Nat) : Option Byte :=
  match lookup p.id m with
  | some k => lookup i k.cells
  | none => none

/-- Cells 0 to `n - 1` from offset `i` on, if all of them are written. -/
def cellsFrom (cells : List Host.Cell) (i : Nat) : Nat → Option (List Byte)
  | 0 => some []
  | n + 1 =>
    match lookup i cells, cellsFrom cells (i + 1) n with
    | some b, some bs => some (b :: bs)
    | _, _ => none

/-- `pay(p)` (R41), if every cell is written. -/
def Memory.payload (m : Memory) (p : Handle) : Option (List Byte) :=
  match lookup p.id m with
  | some k => cellsFrom k.cells 0 k.len
  | none => none

/-- `owner(p) <- o` for a packet that is not in the store. -/
def Memory.setOwner (m : Memory) (p : Handle) (o : Owner) : Memory :=
  match lookup p.id m with
  | some k => update p.id { k with owner := o } m
  | none => m

/-- Put a byte into cell `(p, i)`. -/
def Memory.setCell (m : Memory) (p : Handle) (i : Nat) (v : Byte) : Memory :=
  match lookup p.id m with
  | some k => update p.id { k with cells := update i v k.cells } m
  | none => m

/-- The packet leaves the store: length given, every cell unwritten (R64). -/
def Memory.obtain (m : Memory) (p : Handle) (o : Owner) (len : Nat) : Memory :=
  update p.id { owner := o, len := len, cells := [] } m

/-- The packet goes back to the store (R65). -/
def Memory.release (m : Memory) (p : Handle) : Memory := erase p.id m

/-! ### The trace and the answer to the caller -/

/-- `emit X` (R18, R43). -/
def State.emit (s : State) (e : Event) : State := { s with trace := s.trace ++ [e] }

/-- `return v` (R18). -/
def State.answer (s : State) (r : Result) : State := { s with result := r }

/-- `raise E(info)`: the hardware's whole exception mechanism (R18, R260). The outcome goes on the trace and nothing else
happens: no register is saved, no cause is recorded, control goes nowhere (R39, R273), and there is nothing to return
from or to restore (R274). The state changes the rule lists are made by the operation that raises it. -/
def State.raise (s : State) (e : ErrorOutcome) : State := s.emit (.outcome e)

/-- The wire-out stream (R60 (3)): the bytes of the WIRE_OUT events, in order. -/
def State.wireOut (s : State) : List Byte :=
  s.trace.filterMap fun e => match e with | .wireOut b => some b | _ => none

/-- The wire-in stream (R60 (4)): the bytes of the WIRE_IN events, in order. -/
def State.wireIn (s : State) : List Byte :=
  s.trace.filterMap fun e => match e with | .wireIn b => some b | _ => none

/-! ### Access to packets -/

/-- `MemRead((p, i), 1)` by an owner (R62, R63, R90). -/
def State.memRead (s : State) (o : Owner) (p : Handle) (i : Nat) : Except Fault Byte :=
  match lookup p.id s.packets with
  | none => .error .notOwner
  | some k =>
    if k.owner ≠ o then .error .notOwner
    else if k.len ≤ i then .error .outOfRange
    else
      match lookup i k.cells with
      | none => .error .unwrittenCell
      | some b => .ok b

/-- `MemWrite((p, i), 1, v)` by an owner (R62, R90). -/
def State.memWrite (s : State) (o : Owner) (p : Handle) (i : Nat) (v : Byte) : Res :=
  match lookup p.id s.packets with
  | none => .fault .notOwner
  | some k =>
    if k.owner ≠ o then .fault .notOwner
    else if k.len ≤ i then .fault .outOfRange
    else .next { s with packets := s.packets.setCell p i v }

/-- Move a packet from one owner to another, neither of them the store (R89). DESIGN CHOICE (log 35): of a packet that its
source does not own, a state R48 (h) rules out, it faults. -/
def State.transfer (s : State) (p : Handle) (src dst : Owner) : Res :=
  if src ≠ .store ∧ s.packets.ownerOf p = src then .next { s with packets := s.packets.setOwner p dst }
  else .fault .notOwner

/-- `returnPacket(p)` by an owner (R65). -/
def State.returnPacket (s : State) (o : Owner) (p : Handle) : Res :=
  if o ≠ .store ∧ s.packets.ownerOf p = o then
    .next (State.emit { s with packets := s.packets.release p } (.storeRet p))
  else .fault .returnByNonOwner

/-- What the store was told to answer next: the head of the list, or the free value when the list is used up (log 5). -/
def State.rawAnswer (s : State) (d : Nat) : Option Handle :=
  match s.storeInput with
  | a :: _ => a
  | [] => (Config.freeAnswer s.freeCtr d).map Handle.mk

/-- The store's answer to `requestPacket(d)`: a handle only if the store owns it, the single law of R64. -/
def State.storeAnswer (s : State) (d : Nat) : Option Handle :=
  match s.rawAnswer d with
  | some p => if s.packets.ownerOf p = .store then some p else none
  | none => none

/-- Use up one answer. -/
def State.spendAnswer (s : State) : State :=
  match s.storeInput with
  | _ :: l => { s with storeInput := l }
  | [] => { s with freeCtr := s.freeCtr + 1 }

/-- `requestPacket(d)` by a caller (R64): on success the packet is the caller's, `len(p) = d + HEADER_LENGTH`, every cell
unwritten; on FAIL nothing changes. -/
def State.requestPacket (s : State) (o : Owner) (d : Nat) : State :=
  match s.storeAnswer d with
  | some p =>
    State.emit { s.spendAnswer with packets := s.packets.obtain p o (d + s.params.headerLength) } (.storeReq d (some p))
  | none => s.spendAnswer.emit (.storeReq d none)

/-- `callback(p)` (R194): the registered function is shown the payload of the completed packet; it changes nothing. -/
def State.runCallback (s : State) (p : Handle) : Res :=
  if s.packets.ownerOf p = .rx then
    match s.packets.payload p with
    | some bytes => .next (s.emit (.callback s.rxCallback p bytes))
    | none => .fault .unwrittenCell
  else .fault .notOwner

/-! ### Queues -/

/-- The queue of a name. -/
def State.queue (s : State) : QName → List Handle
  | .txq => s.txq
  | .rxq => s.rxq

/-- `cap(q)`. -/
def State.queueCap (s : State) : QName → Nat
  | .txq => s.txqCap
  | .rxq => s.rxqCap

/-- Replace a queue. -/
def State.setQueue (s : State) (q : QName) (l : List Handle) : State :=
  match q with
  | .txq => { s with txq := l }
  | .rxq => { s with rxq := l }

/-- Whether `tryAddTail` would add: `|q| < cap(q)` (R67). -/
def State.hasRoom (s : State) (q : QName) : Bool := decide ((s.queue q).length < s.queueCap q)

/-- `q.tryAddTail(p)` (R67); it answers `hasRoom q`. -/
def State.tryAddTail (s : State) (q : QName) (p : Handle) : State :=
  if s.hasRoom q then (s.setQueue q (s.queue q ++ [p])).emit (.qAdd q p true)
  else s.emit (.qAdd q p false)

/-- `q.removeHead()` (R68); it answers the head of the queue. -/
def State.removeHead (s : State) (q : QName) : State :=
  (s.setQueue q (s.queue q).tail).emit (.qRem q (s.queue q).head?)

/-- `q.removeTail()` (R69); it answers the last handle of the queue. No event is given to it (R43; log 22). -/
def State.removeTail (s : State) (q : QName) : State := s.setQueue q (s.queue q).dropLast

/-! ### The checksum accumulators -/

/-- The accumulator of a machine, nothing where it holds no value. -/
def State.acc (s : State) : Acc → Option Byte
  | .tx => s.txCsum
  | .rx => s.rxCsum

/-- Write an accumulator. -/
def State.setAcc (s : State) (a : Acc) (v : Option Byte) : State :=
  match a with
  | .tx => { s with txCsum := v }
  | .rx => { s with rxCsum := v }

/-- What an accumulator reads as: its value, or a free byte where it holds none (log 6). -/
def State.accValue (s : State) (a : Acc) : Byte := (s.acc a).getD (Config.freeByte s.freeCtr)

/-- A read of an accumulator that holds no value uses up one free value. -/
def State.accRead (s : State) (a : Acc) : State :=
  match s.acc a with
  | some _ => s
  | none => { s with freeCtr := s.freeCtr + 1 }

/-- CSUM.SEED: `c <- b` (R131). -/
def State.accSeed (s : State) (a : Acc) (b : Byte) : State := s.setAcc a (some b)

/-- CSUM.ACC: `c <- (c + b) mod 256` (R132). -/
def State.accAdd (s : State) (a : Acc) (b : Byte) : State :=
  (s.accRead a).setAcc a (some (accByte (s.accValue a) b))

/-! ### The byte channel -/

/-- `writeByte(b)` (R73): the byte joins the wire-out stream; it cannot fail. -/
def State.writeByte (s : State) (b : Byte) : State := s.emit (.wireOut b)

/-- `readByte()` (R75) of a buffer that holds `b :: rest`. -/
def State.takeByte (s : State) (b : Byte) (rest : List Byte) : State :=
  State.emit { s with chanRxbuf := rest } (.wireIn b)

/-! ### When an operation has a meaning -/

/-- An instance whose parameters meet their constraint and whose SYS.INIT has run (R10, R47). -/
def State.ready (s : State) : Bool := s.params.ok && s.initialised

/-- Run an operation of an initialised block; before SYS.INIT no operation has a meaning (R47). -/
def whenReady (s : State) (r : Res) : Res :=
  if s.params.ok = false then .refused .badParameters
  else if s.initialised = false then .refused .uninitialised
  else r

/-- Run a row whose guard selects it (R115). -/
def whenSelected (guard : Bool) (r : Res) : Res :=
  if guard = true then r else .refused .notSelected

end Sys2Proof.Machine
end

