-- ==== Sys2Proof/Machine/Select.lean ====
section
/-! DEFINITION. Selection: which row of a family runs, by the state and the guard (`30_encoding.md` R115, R116). -/

namespace Sys2Proof.Machine

/-- The rows of TX.SUBMIT (R151, R152), the rejections by their cause, tested in the order of R151. -/
inductive SubmitRow where
  | busy | null | oversize | accept
deriving DecidableEq, Repr

/-- The rows of TX.ADV (R154). -/
inductive TxRow where
  | idle | sizecheck | body | trailer
deriving DecidableEq, Repr

/-- The rows of RX.BYTE (R181). -/
inductive RxRow where
  | idleAccept | idleDiscard | awaitValid | awaitNobuf | awaitResync | bodyStore | bodyGood | bodyGoodQfull | bodyBad
deriving DecidableEq, Repr

/-- Which row TX.SUBMIT(p) selects. A handle the store owns has no length; it selects the accepting row, whose meaning
faults on the access by a non-owner (R90; log 10). -/
def State.submitRow (s : State) (p : Option Handle) : SubmitRow :=
  if s.txState ≠ .idle then .busy
  else
    match p with
    | none => .null
    | some h =>
      match s.packets.lenOf h with
      | none => .accept
      | some n => if s.params.maxFrameSize ≤ n then .oversize else .accept

/-- `tx_off = len(tx_pkt)` (R154). DESIGN CHOICE (log 34): with `tx_pkt` or `tx_off` absent, or a held packet that has no
length, it does not hold, so TX_SENDING_BODY selects TX.ADV.BODY. -/
def State.txAtEnd (s : State) : Bool :=
  match s.txPkt, s.txOff with
  | some p, some o => s.packets.lenOf p == some o
  | _, _ => false

/-- Which row a transmit-ready event selects. -/
def State.txRow (s : State) : TxRow :=
  match s.txState with
  | .idle => .idle
  | .sendingSize => .sizecheck
  | .sendingBody => if s.txAtEnd then .trailer else .body

/-- `rx_off = len(rx_pkt)` (R189). DESIGN CHOICE (log 34): with `rx_pkt` or `rx_off` absent, or a held packet that has no
length, it does not hold, so RX_RECEIVING_BODY selects RX.BODY.STORE. -/
def State.rxAtEnd (s : State) : Bool :=
  match s.rxPkt, s.rxOff with
  | some p, some o => s.packets.lenOf p == some o
  | _, _ => false

/-- Which row RX.BYTE(b) selects. DESIGN CHOICE (log 33): in RX_AWAIT_SIZECHECK with `rx_size` holding no value, a state the
table of R31 does not have, it is RX.AWAIT.RESYNC, whose rule reads no `rx_size`. -/
def State.rxRow (s : State) (b : Byte) : RxRow :=
  match s.rxState with
  | .idle => if s.params.belowMax b then .idleAccept else .idleDiscard
  | .awaitSizecheck =>
    match s.rxSize with
    | none => .awaitResync
    | some size =>
      if pairTest (s.accValue .rx) b && s.params.inBounds size then
        match s.storeAnswer (s.params.requestLength size) with
        | some _ => .awaitValid
        | none => .awaitNobuf
      else .awaitResync
  | .receivingBody =>
    if s.rxAtEnd then
      if b = s.accValue .rx then
        if s.hasRoom .rxq then .bodyGood else .bodyGoodQfull
      else .bodyBad
    else .bodyStore

end Sys2Proof.Machine
end

