-- ==== Sys2Proof/WellFormed.lean ====
section
/-! DEFINITION. The checks a well-formed operation of an instance passes: the bounds the guards of R115 put on the
operand alone, and who may invoke it. -/

namespace Sys2Proof

/-- An operation that can be selected in some state of an instance with these parameters (R115): the byte of
RX.IDLE.ACCEPT is below MAX_FRAME_SIZE and that of RX.IDLE.DISCARD is not; the byte that completes a pair is the complement
of a Size in bounds; TX never asks the store for a packet. -/
def Instr.wf (k : Params) : Instr → Bool
  | .csumSeed _ _ => true
  | .csumAcc _ _ => true
  | .csumCompl _ => true
  | .csumPair _ _ => true
  | .csumMatch _ _ => true
  | .txSubmitReject _ => true
  | .txSubmitAccept _ => true
  | .txAdvIdle => true
  | .txAdvSizecheck => true
  | .txAdvBody => true
  | .txAdvTrailer => true
  | .rxIdleAccept b => k.belowMax b
  | .rxIdleDiscard b => !k.belowMax b
  | .rxAwaitValid b => k.inBounds (complByte b)
  | .rxAwaitNobuf b => k.inBounds (complByte b)
  | .rxAwaitResync _ => true
  | .rxBodyStore _ => true
  | .rxBodyGood _ => true
  | .rxBodyGoodQfull _ => true
  | .rxBodyBad _ => true
  | .rxDrain => true
  | .rxOvrClear => true
  | .sysInit _ _ _ => true
  | .sysCritEnter => true
  | .sysCritLeave => true
  | .fgSend _ => true
  | .fgProcess => true
  | .fgRecv => true
  | .fgQuery _ _ => true
  | .storeRequest c _ => c != .txi
  | .storeReturn _ _ => true
  | .qAddtail _ _ => true
  | .qRemhead _ => true
  | .qRemtail _ => true
  | .qIsempty _ => true
  | .qIsfull _ => true
  | .qSize _ => true
  | .chWrite _ => true
  | .chAvail => true
  | .chRead => true
  | .chOvrclr => true
  | .chIrqen _ _ => true
  | .envRxbyte _ => true
  | .envRxlose => true
  | .envTxrdy => true
  | .envRxrdy => true

end Sys2Proof
end

