-- ==== Sys2Proof/Decode.lean ====
section
/-! DEFINITION. Decoding, total and rejecting by name, and then encoding. The hardware has two things to decode: an
agent's call in a state, which selects one row of the operation map (`30_encoding.md` R115, R116), and the Frame, its only
binary format (R100, R101). -/

namespace Sys2Proof

open Machine

/-! ### Calls -/

/-- An operation that consumes no byte. -/
def noByte (i : Instr) : List Byte → Except Reject Instr
  | [] => .ok i
  | _ :: _ => .error .extraBytes

/-- An operation that consumes one byte. -/
def oneByte (i : Byte → Instr) : List Byte → Except Reject Instr
  | [] => .error .missingByte
  | [b] => .ok (i b)
  | _ :: _ :: _ => .error .extraBytes

/-- The row of TX.SUBMIT(p) (R151, R152). -/
def submitInstr (s : State) (p : Option Handle) : Instr :=
  match s.submitRow p, p with
  | .accept, some h => .txSubmitAccept h
  | _, _ => .txSubmitReject p

/-- The row of TX.ADV (R154). -/
def txInstr (s : State) : Instr :=
  match s.txRow with
  | .idle => .txAdvIdle
  | .sizecheck => .txAdvSizecheck
  | .body => .txAdvBody
  | .trailer => .txAdvTrailer

/-- The row of RX.BYTE(b) (R181). -/
def rxInstr (s : State) (b : Byte) : Instr :=
  match s.rxRow b with
  | .idleAccept => .rxIdleAccept b
  | .idleDiscard => .rxIdleDiscard b
  | .awaitValid => .rxAwaitValid b
  | .awaitNobuf => .rxAwaitNobuf b
  | .awaitResync => .rxAwaitResync b
  | .bodyStore => .rxBodyStore b
  | .bodyGood => .rxBodyGood b
  | .bodyGoodQfull => .rxBodyGoodQfull b
  | .bodyBad => .rxBodyBad b

/-- The decoder of R116: given the agent's call and the state, the one row whose guard holds. A row whose state column
says `any` or nothing is found by its name; that no such row but SYS.INIT runs before SYS.INIT (R47) is told by `exec`. -/
def decode (s : State) (c : Call) : Except Reject Instr :=
  match c.entry with
  | .csumSeed a => oneByte (.csumSeed a) c.bytes
  | .csumAcc a => oneByte (.csumAcc a) c.bytes
  | .csumCompl a => noByte (.csumCompl a) c.bytes
  | .csumPair a => oneByte (.csumPair a) c.bytes
  | .csumMatch a => oneByte (.csumMatch a) c.bytes
  | .txSubmit p => noByte (submitInstr s p) c.bytes
  | .txAdv => noByte (txInstr s) c.bytes
  | .rxByte => oneByte (rxInstr s) c.bytes
  | .rxDrain => noByte .rxDrain c.bytes
  | .rxOvrClear => if s.chanOvr then noByte .rxOvrClear c.bytes else .error .noRow
  | .sysInit n m cb => if s.initialised then .error .noRow else noByte (.sysInit n m cb) c.bytes
  | .sysCritEnter => noByte .sysCritEnter c.bytes
  | .sysCritLeave => noByte .sysCritLeave c.bytes
  | .fgSend p => noByte (.fgSend p) c.bytes
  | .fgProcess => noByte .fgProcess c.bytes
  | .fgRecv => noByte .fgRecv c.bytes
  | .fgQuery q f => noByte (.fgQuery q f) c.bytes
  | .storeRequest ctx d => if ctx = .txi then .error .notACaller else noByte (.storeRequest ctx d) c.bytes
  | .storeReturn ctx p => noByte (.storeReturn ctx p) c.bytes
  | .qAddtail q p => noByte (.qAddtail q p) c.bytes
  | .qRemhead q => noByte (.qRemhead q) c.bytes
  | .qRemtail q => noByte (.qRemtail q) c.bytes
  | .qIsempty q => noByte (.qIsempty q) c.bytes
  | .qIsfull q => noByte (.qIsfull q) c.bytes
  | .qSize q => noByte (.qSize q) c.bytes
  | .chWrite => oneByte .chWrite c.bytes
  | .chAvail => noByte .chAvail c.bytes
  | .chRead => noByte .chRead c.bytes
  | .chOvrclr => noByte .chOvrclr c.bytes
  | .chIrqen src on => noByte (.chIrqen src on) c.bytes
  | .envRxbyte => oneByte .envRxbyte c.bytes
  | .envRxlose => noByte .envRxlose c.bytes
  | .envTxrdy => noByte .envTxrdy c.bytes
  | .envRxrdy => noByte .envRxrdy c.bytes

/-- The call that an operation is the row of, with the byte it consumes: the columns "invoked by" and encoding of
`spec/opcode_table.json`. A byte the operation emits or answers is not part of the call. -/
def encode : Instr → Call
  | .csumSeed a b => ⟨.csumSeed a, [b]⟩
  | .csumAcc a b => ⟨.csumAcc a, [b]⟩
  | .csumCompl a => ⟨.csumCompl a, []⟩
  | .csumPair a b => ⟨.csumPair a, [b]⟩
  | .csumMatch a b => ⟨.csumMatch a, [b]⟩
  | .txSubmitReject p => ⟨.txSubmit p, []⟩
  | .txSubmitAccept p => ⟨.txSubmit (some p), []⟩
  | .txAdvIdle => ⟨.txAdv, []⟩
  | .txAdvSizecheck => ⟨.txAdv, []⟩
  | .txAdvBody => ⟨.txAdv, []⟩
  | .txAdvTrailer => ⟨.txAdv, []⟩
  | .rxIdleAccept b => ⟨.rxByte, [b]⟩
  | .rxIdleDiscard b => ⟨.rxByte, [b]⟩
  | .rxAwaitValid b => ⟨.rxByte, [b]⟩
  | .rxAwaitNobuf b => ⟨.rxByte, [b]⟩
  | .rxAwaitResync b => ⟨.rxByte, [b]⟩
  | .rxBodyStore b => ⟨.rxByte, [b]⟩
  | .rxBodyGood b => ⟨.rxByte, [b]⟩
  | .rxBodyGoodQfull b => ⟨.rxByte, [b]⟩
  | .rxBodyBad b => ⟨.rxByte, [b]⟩
  | .rxDrain => ⟨.rxDrain, []⟩
  | .rxOvrClear => ⟨.rxOvrClear, []⟩
  | .sysInit n m cb => ⟨.sysInit n m cb, []⟩
  | .sysCritEnter => ⟨.sysCritEnter, []⟩
  | .sysCritLeave => ⟨.sysCritLeave, []⟩
  | .fgSend p => ⟨.fgSend p, []⟩
  | .fgProcess => ⟨.fgProcess, []⟩
  | .fgRecv => ⟨.fgRecv, []⟩
  | .fgQuery q f => ⟨.fgQuery q f, []⟩
  | .storeRequest c d => ⟨.storeRequest c d, []⟩
  | .storeReturn c p => ⟨.storeReturn c p, []⟩
  | .qAddtail q p => ⟨.qAddtail q p, []⟩
  | .qRemhead q => ⟨.qRemhead q, []⟩
  | .qRemtail q => ⟨.qRemtail q, []⟩
  | .qIsempty q => ⟨.qIsempty q, []⟩
  | .qIsfull q => ⟨.qIsfull q, []⟩
  | .qSize q => ⟨.qSize q, []⟩
  | .chWrite b => ⟨.chWrite, [b]⟩
  | .chAvail => ⟨.chAvail, []⟩
  | .chRead => ⟨.chRead, []⟩
  | .chOvrclr => ⟨.chOvrclr, []⟩
  | .chIrqen src on => ⟨.chIrqen src on, []⟩
  | .envRxbyte b => ⟨.envRxbyte, [b]⟩
  | .envRxlose => ⟨.envRxlose, []⟩
  | .envTxrdy => ⟨.envTxrdy, []⟩
  | .envRxrdy => ⟨.envRxrdy, []⟩

/-! ### Frames -/

/-- Why a byte sequence does not begin with a Frame. -/
inductive FrameReject where
  /-- It ends before the Checksum byte (R107). -/
  | truncated
  /-- The second byte is not the complement of the first (R103). -/
  | badSizeCheck
  /-- Size is below the three framing bytes (R102). -/
  | badSize
  /-- The last byte is not the sum of the bytes before it (R105). -/
  | badChecksum
deriving DecidableEq, Repr

/-- Read one Frame off a byte sequence: its payload and the bytes after it (R101 to R105, R107). -/
def parseFrame : List Byte → Except FrameReject (List Byte × List Byte)
  | [] => .error .truncated
  | [_] => .error .truncated
  | size :: check :: rest =>
    if pairTest size check = false then .error .badSizeCheck
    else if size.toNat < framingBytes then .error .badSize
    else
      match rest.drop (size.toNat - framingBytes) with
      | [] => .error .truncated
      | c :: after =>
        let payload := rest.take (size.toNat - framingBytes)
        if c = payload.foldl accByte (accByte size check) then .ok (payload, after) else .error .badChecksum

/-! ### Words of the table (log 19) -/

/-- A state in which a word of the table selects a row: RX awaits the SizeCheck of the smallest Size in bounds, and the
store will answer an unused handle. -/
def probeState (s : State) : State :=
  { s with
    rxState := .awaitSizecheck, rxPkt := none, rxOff := none
    rxSize := some (BitVec.ofNat 8 s.params.minFrameSize), rxCsum := some (BitVec.ofNat 8 s.params.minFrameSize)
    storeInput := some ⟨s.packets.foldl (fun n e => Nat.max n (e.1 + 1)) 0⟩ :: s.storeInput }

/-- The call a word of the table stands for. The only fixed bits of the table are `match 0xFF` under `mask 0xFF`, applied
to `rx_csum XOR b` (R116), so an 8-bit word is that value and the call is RX.BYTE of the `b` that gives it. A word of no bits
names no row. -/
def probeCall (s : State) (nbits w : Nat) : Option Call :=
  if nbits = 8 ∧ w < 256 then some ⟨.rxByte, [BitVec.ofNat 8 s.params.minFrameSize ^^^ BitVec.ofNat 8 w]⟩
  else none

/-- The operation the decoder reads from a word of the table, numbered as the table numbers it. -/
def decodeTableWord (nbits w : Nat) : Option Instr :=
  match probeCall State.reset nbits w with
  | some c =>
    match decode (probeState State.reset) c with
    | .ok i => some i
    | .error _ => none
  | none => none

end Sys2Proof
end

