-- ==== Sys2Proof/Machine/Checksum.lean ====
section
/-! DEFINITION. The checksum accumulator family (`40_checksum.md` R131 to R135). -/

namespace Sys2Proof.Machine

/-- CSUM.SEED (R131). -/
def execCsumSeed (a : Acc) (b : Byte) (s : State) : Res :=
  whenReady s (.next ((s.accSeed a b).answer .none))

/-- CSUM.ACC (R132). -/
def execCsumAcc (a : Acc) (b : Byte) (s : State) : Res :=
  whenReady s (.next ((s.accAdd a b).answer .none))

/-- CSUM.COMPL (R133): answers `~c`; the accumulator is not changed. -/
def execCsumCompl (a : Acc) (s : State) : Res :=
  whenReady s (.next ((s.accRead a).answer (.byte (complByte (s.accValue a)))))

/-- CSUM.PAIR (R134): answers whether `b` is the complement; the accumulator is not changed. -/
def execCsumPair (a : Acc) (b : Byte) (s : State) : Res :=
  whenReady s (.next ((s.accRead a).answer (.bit (pairTest (s.accValue a) b))))

/-- CSUM.MATCH (R135): answers whether `b` equals the accumulator, which is not changed. -/
def execCsumMatch (a : Acc) (b : Byte) (s : State) : Res :=
  whenReady s (.next ((s.accRead a).answer (.bit (b == s.accValue a))))

end Sys2Proof.Machine
end

