-- ==== Sys2Proof/Machine/Flags.lean ====
section
/-! DEFINITION. The flags: the overrun flag (R34), the two pending marks (R36), the two interrupt enables (R37). -/

namespace Sys2Proof.Machine

/-- `clearOverrun()`: `chan_ovr <- 0` and OVR_CLEAR (R76). -/
def State.clearOverrun (s : State) : State := State.emit { s with chanOvr := false } .ovrClear

/-- The channel lost bytes: `chan_ovr <- 1` (R230). -/
def State.setOverrun (s : State) : State := { s with chanOvr := true }

/-- The channel raises an event (R36, R269, R270). -/
def State.raiseEvent (s : State) : Source → State
  | .txrdy => { s with txrdyPending := true }
  | .rxrdy => { s with rxrdyPending := true }

/-- Entry of a handler: serving an event clears its pending mark (R271), and nothing else is saved or changed (R273). A
handler returns by finishing; there is no return operation and nothing to restore (R274). -/
def State.enterHandler (s : State) : Source → State
  | .txrdy => { s with txrdyPending := false }
  | .rxrdy => { s with rxrdyPending := false }

/-- An interrupt-enable control (R77). -/
def State.setEnable (s : State) (src : Source) (on : Bool) : State :=
  match src with
  | .txrdy => { s with irqTxEn := on }
  | .rxrdy => { s with irqRxEn := on }

/-- The enable of a source. -/
def State.enabled (s : State) : Source → Bool
  | .txrdy => s.irqTxEn
  | .rxrdy => s.irqRxEn

/-- The pending mark of a source. -/
def State.pending (s : State) : Source → Bool
  | .txrdy => s.txrdyPending
  | .rxrdy => s.rxrdyPending

/-- SYS.CRIT.ENTER: both enables 0 (R221). -/
def State.critEnter (s : State) : State := (s.setEnable .txrdy false).setEnable .rxrdy false

/-- SYS.CRIT.LEAVE: both enables 1 (R222). -/
def State.critLeave (s : State) : State := (s.setEnable .txrdy true).setEnable .rxrdy true

end Sys2Proof.Machine
end

