-- ==== Sys2Proof/Machine/Receive.lean ====
section
/-! DEFINITION. The receive state machine (`42_receive.md`). -/

namespace Sys2Proof.Machine

/-- One of the nine rows of RX.BYTE(b), run where the state selects it (R181). DESIGN CHOICE (log 31): made as a move of its
own, outside RX.DRAIN, it runs whatever `irq_rx_en` is. -/
def rxRowRun (row : RxRow) (b : Byte) (s : State) (body : State → Res) : Res :=
  whenReady s <| whenSelected (s.rxRow b == row) <| body (s.answer .none)

/-- `b` becomes the candidate Size and the running checksum seed (R182, R187). -/
def State.seedCandidate (s : State) (b : Byte) : State :=
  { s.accSeed .rx b with rxSize := some b, rxState := .awaitSizecheck }

/-- The end of a receive session: RX idle and holding no packet; the other registers cease to hold a value (R31). -/
def State.endReceive (s : State) : State :=
  { s with rxState := .idle, rxPkt := none, rxOff := none, rxCsum := none, rxSize := none }

/-- RX.IDLE.ACCEPT (R182). -/
def execRxIdleAccept (b : Byte) (s : State) : Res :=
  rxRowRun .idleAccept b s fun t => .next (t.seedCandidate b)

/-- RX.IDLE.DISCARD (R183). -/
def execRxIdleDiscard (b : Byte) (s : State) : Res :=
  rxRowRun .idleDiscard b s fun t => .next (t.raise .framing)

/-- RX.AWAIT.VALID (R185): a packet is obtained and the body begins. -/
def execRxAwaitValid (b : Byte) (s : State) : Res :=
  rxRowRun .awaitValid b s fun t =>
    match t.rxSize with
    | some size =>
      let d := t.params.requestLength size
      .next { (t.requestPacket .rx d).accRead .rx with
        rxPkt := t.storeAnswer d, rxCsum := some (accByte (t.accValue .rx) b)
        rxOff := some 0, rxState := .receivingBody }
    | none => .fault .noRegisterValue

/-- RX.AWAIT.NOBUF (R186): the store has no packet and the frame is dropped. DESIGN CHOICE (log 36): where `rx_pkt` or
`rx_off` holds a value, in a state the table of R31 does not have, both cease to hold one, and the packet stays owned by RX.
-/
def execRxAwaitNobuf (b : Byte) (s : State) : Res :=
  rxRowRun .awaitNobuf b s fun t =>
    match t.rxSize with
    | some size =>
      .next (((t.requestPacket .rx (t.params.requestLength size)).accRead .rx).raise (.nobuf size)).endReceive
    | none => .fault .noRegisterValue

/-- RX.AWAIT.RESYNC (R187). -/
def execRxAwaitResync (b : Byte) (s : State) : Res :=
  rxRowRun .awaitResync b s fun t => .next (((t.accRead .rx).raise .framing).seedCandidate b)

/-- RX.BODY.STORE (R188). -/
def execRxBodyStore (b : Byte) (s : State) : Res :=
  rxRowRun .bodyStore b s fun t =>
    match t.rxPkt, t.rxOff with
    | some p, some o =>
      andThen (t.memWrite .rx p o b) fun u => .next { u.accAdd .rx b with rxOff := some (o + 1) }
    | _, _ => .fault .noRegisterValue

/-- RX.BODY.GOOD (R189): the callback, then the queue. -/
def execRxBodyGood (b : Byte) (s : State) : Res :=
  rxRowRun .bodyGood b s fun t =>
    match t.rxPkt with
    | some p =>
      andThen ((t.accRead .rx).runCallback p) fun u =>
      andThen ((u.tryAddTail .rxq p).transfer p .rx .rxq) fun v => .next v.endReceive
    | none => .fault .noRegisterValue

/-- RX.BODY.GOOD.QFULL (R190): the callback has run; the packet goes back to the store. -/
def execRxBodyGoodQfull (b : Byte) (s : State) : Res :=
  rxRowRun .bodyGoodQfull b s fun t =>
    match t.rxPkt with
    | some p =>
      andThen ((t.accRead .rx).runCallback p) fun u =>
      andThen (State.returnPacket ((u.tryAddTail .rxq p).raise .qfull) .rx p) fun v => .next v.endReceive
    | none => .fault .noRegisterValue

/-- RX.BODY.BAD (R191): the packet goes back to the store, no callback. -/
def execRxBodyBad (b : Byte) (s : State) : Res :=
  rxRowRun .bodyBad b s fun t =>
    match t.rxPkt with
    | some p =>
      andThen (State.returnPacket ((t.accRead .rx).raise (.checksum b (t.accValue .rx))) .rx p) fun u =>
        .next u.endReceive
    | none => .fault .noRegisterValue

/-- RX.BYTE(b): the one row the state, the byte and the collaborators' answers select (R181). -/
def rxByte (b : Byte) (s : State) : Res :=
  match s.rxRow b with
  | .idleAccept => execRxIdleAccept b s
  | .idleDiscard => execRxIdleDiscard b s
  | .awaitValid => execRxAwaitValid b s
  | .awaitNobuf => execRxAwaitNobuf b s
  | .awaitResync => execRxAwaitResync b s
  | .bodyStore => execRxBodyStore b s
  | .bodyGood => execRxBodyGood b s
  | .bodyGoodQfull => execRxBodyGoodQfull b s
  | .bodyBad => execRxBodyBad b s

/-- RX.OVR.CLEAR (R193): selected when `chan_ovr = 1`; clears the flag and does nothing else. DESIGN CHOICE (log 31): made
as a move of its own it runs whatever `irq_rx_en` is. -/
def execRxOvrClear (s : State) : Res :=
  whenReady s <| whenSelected s.chanOvr <| .next (s.clearOverrun.answer .none)

/-- The loop of RX.DRAIN over the bytes that wait when it starts (R192): read one, apply RX.BYTE, go on. -/
def drainLoop : Nat → State → Res
  | 0, s => .next s
  | n + 1, s =>
    match s.chanRxbuf with
    | [] => .next s
    | b :: rest => andThen (rxByte b (s.takeByte b rest)) (drainLoop n)

/-- RX.DRAIN (R192): the body of the receive-ready interrupt, only while `irq_rx_en = 1` (R37). -/
def execRxDrain (s : State) : Res :=
  whenReady s <|
    if s.irqRxEn then
      andThen (drainLoop s.chanRxbuf.length ((s.enterHandler .rxrdy).answer .none)) fun t =>
        if t.chanOvr then execRxOvrClear t else .next t
    else .refused .handlerHeld

end Sys2Proof.Machine
end

