-- ==== Sys2Proof/Machine/Transmit.lean ====
section
/-! DEFINITION. The transmit state machine (`41_transmit.md`). -/

namespace Sys2Proof.Machine

/-- The defensive release (R153): a packet the idle machine still marks as held goes back to the store before the new
submission; the submitted packet itself is excluded: it is refused, where its submitter may submit it (U19; log 24). -/
def State.releaseHeld (s : State) (p : Handle) : Res :=
  match s.txPkt with
  | none => .next s
  | some q =>
    if q = p then .refused .danglingResubmit
    else andThen (s.returnPacket .tx q) fun t => .next { t with txPkt := none, txState := .idle }

/-- Whose packet may be submitted: the foreground's, or one of the outbound queue's whose handle has left the queue
(R89: FG.PROCESS moves TXQ to TX; log 10). -/
def State.maySubmit (s : State) (p : Handle) : Bool :=
  s.packets.ownerOf p == .fg || (s.packets.ownerOf p == .txq && decide (p ∉ s.txq))

/-- The body of an accepted submission of a packet of length `len` (R152). -/
def State.startFrame (s : State) (p : Handle) (len : Nat) : Res :=
  andThen (s.releaseHeld p) fun t =>
  andThen (t.transfer p (t.packets.ownerOf p) .tx) fun u =>
    .next ((State.writeByte { u.accSeed .tx (sizeByte len) with txPkt := some p, txState := .sendingSize }
      (sizeByte len)).answer (.bit true))

/-- TX.SUBMIT.REJECT (R151): one of the three outcomes, `false` to the caller, nothing else changes. The length is read
only where the first two tests have passed, and only the packet's owner may read it (R90). -/
def execTxSubmitReject (p : Option Handle) (s : State) : Res :=
  whenReady s
    (match s.submitRow p with
    | .busy => .next ((s.raise .submitBusy).answer (.bit false))
    | .null => .next ((s.raise .submitNull).answer (.bit false))
    | .oversize =>
      if p.all s.maySubmit then .next ((s.raise .submitOversize).answer (.bit false)) else .fault .notOwner
    | .accept => .refused .notSelected)

/-- TX.SUBMIT.ACCEPT (R152): the Size byte is written and the frame begins. DESIGN CHOICE (log 32): it does not test that it
is inside a critical section, nor does TX.SUBMIT.REJECT. DESIGN CHOICE (log 24): the owner is tested before the defensive
release, so the dangling `tx_pkt` submitted while TX still owns it faults as notOwner (U17) and is not refused (U19). -/
def execTxSubmitAccept (p : Handle) (s : State) : Res :=
  whenReady s <| whenSelected (s.submitRow (some p) == .accept) <|
    if s.maySubmit p then
      match s.packets.lenOf p with
      | some len => s.startFrame p len
      | none => .fault .notOwner
    else .fault .notOwner

/-- A run of TX.ADV that the state selects: it serves the transmit-ready event, only while `irq_tx_en = 1` (R37, R154). -/
def serveTx (row : TxRow) (s : State) (body : State → Res) : Res :=
  whenReady s <| whenSelected (s.txRow == row) <|
    if s.irqTxEn then body ((s.enterHandler .txrdy).answer .none) else .refused .handlerHeld

/-- TX.ADV.IDLE (R155): nothing is written and no register changes. -/
def execTxAdvIdle (s : State) : Res := serveTx .idle s .next

/-- TX.ADV.SIZECHECK (R156). -/
def execTxAdvSizecheck (s : State) : Res :=
  serveTx .sizecheck s fun t =>
    .next (State.writeByte { t.accAdd .tx (complByte (t.accValue .tx)) with txState := .sendingBody, txOff := some 0 }
      (complByte (t.accValue .tx)))

/-- TX.ADV.BODY (R157): the payload byte is read now. -/
def execTxAdvBody (s : State) : Res :=
  serveTx .body s fun t =>
    match t.txPkt, t.txOff with
    | some p, some o =>
      match t.memRead .tx p o with
      | .ok b => .next (State.writeByte { t.accAdd .tx b with txOff := some (o + 1) } b)
      | .error f => .fault f
    | _, _ => .fault .noRegisterValue

/-- TX.ADV.TRAILER (R158): the Checksum is written, the packet goes back to the store, the session ends. -/
def execTxAdvTrailer (s : State) : Res :=
  serveTx .trailer s fun t =>
    match t.txPkt with
    | some p =>
      andThen (State.returnPacket ((t.accRead .tx).writeByte (t.accValue .tx)) .tx p) fun u =>
        .next { u with txState := .idle, txPkt := none, txOff := none, txCsum := none }
    | none => .fault .noRegisterValue

/-- TX.ADV: the one row the state selects (R154). -/
def txAdv (s : State) : Res :=
  match s.txRow with
  | .idle => execTxAdvIdle s
  | .sizecheck => execTxAdvSizecheck s
  | .body => execTxAdvBody s
  | .trailer => execTxAdvTrailer s

end Sys2Proof.Machine
end

