-- ==== Sys2Proof/Machine/Environment.lean ====
section
/-! DEFINITION. The moves of the environment (`43_system.md` R228 to R232). -/

namespace Sys2Proof.Machine

/-- ENV.RXBYTE (R229): a byte arrives and a receive-ready event becomes pending. -/
def execEnvRxbyte (b : Byte) (s : State) : Res :=
  whenReady s (.next (State.answer (State.raiseEvent { s with chanRxbuf := s.chanRxbuf ++ [b] } .rxrdy) .none))

/-- ENV.RXLOSE (R230): a byte is lost unseen and the overrun flag is set. -/
def execEnvRxlose (s : State) : Res := whenReady s (.next (s.setOverrun.answer .none))

/-- ENV.TXRDY (R231): the event becomes pending, and while `irq_tx_en = 1` one run of TX.ADV serves it. -/
def execEnvTxrdy (s : State) : Res :=
  whenReady s <|
    if s.irqTxEn then txAdv (s.raiseEvent .txrdy) else .next ((s.raiseEvent .txrdy).answer .none)

/-- ENV.RXRDY (R232): the event is pending, and while `irq_rx_en = 1` one run of RX.DRAIN serves it. -/
def execEnvRxrdy (s : State) : Res :=
  whenReady s <|
    if s.irqRxEn then execRxDrain (s.raiseEvent .rxrdy) else .next ((s.raiseEvent .rxrdy).answer .none)

end Sys2Proof.Machine
end

