-- ==== Sys2Proof/Machine/Collaborators.lean ====
section
/-! DEFINITION. The 13 primitives of the three collaborators (`20_memory.md` R64 to R77): packet store, bounded queues,
byte channel. DESIGN CHOICE (log 32): none of them tests that it is called inside a critical section. -/

namespace Sys2Proof.Machine

/-- The owner a context is (R89, R276). -/
def ownerOfCtx : Ctx → Owner
  | .fg => .fg
  | .txi => .tx
  | .rxi => .rx

/-- STORE.REQUEST (R64), invoked by RX or FG (R115). -/
def execStoreRequest (c : Ctx) (d : Nat) (s : State) : Res :=
  whenReady s <|
    if c = .txi then .refused .notACaller
    else .next ((s.requestPacket (ownerOfCtx c) d).answer (.handle (s.storeAnswer d)))

/-- STORE.RETURN (R65). -/
def execStoreReturn (c : Ctx) (p : Handle) (s : State) : Res :=
  whenReady s (State.returnPacket (s.answer .none) (ownerOfCtx c) p)

/-- Q.ADDTAIL (R67), inside a section or outside one (log 32). -/
def execQAddtail (q : QName) (p : Handle) (s : State) : Res :=
  whenReady s (.next ((s.tryAddTail q p).answer (.bit (s.hasRoom q))))

/-- Q.REMHEAD (R68), inside a section or outside one (log 32). -/
def execQRemhead (q : QName) (s : State) : Res :=
  whenReady s (.next ((s.removeHead q).answer (.handle (s.queue q).head?)))

/-- Q.REMTAIL (R69), inside a section or outside one (log 32). -/
def execQRemtail (q : QName) (s : State) : Res :=
  whenReady s (.next ((s.removeTail q).answer (.handle (s.queue q).getLast?)))

/-- `q.isEmpty()` (R70). -/
def State.isEmptyAnswer (s : State) (q : QName) : Result := .bit (decide ((s.queue q).length = 0))

/-- `q.isFull()` (R71). -/
def State.isFullAnswer (s : State) (q : QName) : Result := .bit (decide ((s.queue q).length = s.queueCap q))

/-- `q.size()` (R72). -/
def State.sizeAnswer (s : State) (q : QName) : Result := .nat (s.queue q).length

/-- Q.ISEMPTY (R70). -/
def execQIsempty (q : QName) (s : State) : Res := whenReady s (.next (s.answer (s.isEmptyAnswer q)))

/-- Q.ISFULL (R71). -/
def execQIsfull (q : QName) (s : State) : Res := whenReady s (.next (s.answer (s.isFullAnswer q)))

/-- Q.SIZE (R72). -/
def execQSize (q : QName) (s : State) : Res := whenReady s (.next (s.answer (s.sizeAnswer q)))

/-- CH.WRITE (R73). -/
def execChWrite (b : Byte) (s : State) : Res := whenReady s (.next ((s.writeByte b).answer .none))

/-- CH.AVAIL (R74). -/
def execChAvail (s : State) : Res := whenReady s (.next (s.answer (.bit (!s.chanRxbuf.isEmpty))))

/-- CH.READ (R75); a call on an empty buffer faults. -/
def execChRead (s : State) : Res :=
  whenReady s
    (match s.chanRxbuf with
    | [] => .fault .emptyRead
    | b :: rest => .next ((s.takeByte b rest).answer (.byte b)))

/-- CH.OVRCLR (R76). -/
def execChOvrclr (s : State) : Res := whenReady s (.next (s.clearOverrun.answer .none))

/-- CH.IRQEN (R77). -/
def execChIrqen (src : Source) (on : Bool) (s : State) : Res :=
  whenReady s (.next ((s.setEnable src on).answer .none))

end Sys2Proof.Machine
end

