-- ==== Sys2Proof/Machine/System.lean ====
section
/-! DEFINITION. Initialisation, the critical section and the driver facade (`43_system.md` R220 to R226). -/

namespace Sys2Proof.Machine

/-- SYS.INIT (R220, R46): the reset of this hardware. The channel's flag, buffer and pending marks are not touched. -/
def execSysInit (txqCap rxqCap : Nat) (cb : Callback) (s : State) : Res :=
  if s.params.ok = false then .refused .badParameters
  else if s.initialised then .refused .alreadyInitialised
  else
    .next
      { s with
        initialised := true
        txqCap := txqCap, txq := [], rxqCap := rxqCap, rxq := []
        rxCallback := cb
        txState := .idle, txPkt := none, txOff := none, txCsum := none
        rxState := .idle, rxPkt := none, rxOff := none, rxCsum := none, rxSize := none
        irqTxEn := true, irqRxEn := true
        trace := [], result := .none }

/-- SYS.CRIT.ENTER (R221). -/
def execSysCritEnter (s : State) : Res := whenReady s (.next (s.critEnter.answer .none))

/-- SYS.CRIT.LEAVE (R222). -/
def execSysCritLeave (s : State) : Res := whenReady s (.next (s.critLeave.answer .none))

/-- A foreground operation is one whole critical section (R88). -/
def inSection (s : State) (body : State → Res) : Res :=
  andThen (body (s.critEnter.answer .none)) fun t => .next t.critLeave

/-- FG.SEND (R223): the packet must be the foreground's. -/
def execFgSend (p : Handle) (s : State) : Res :=
  whenReady s <| inSection s fun t =>
    if t.packets.ownerOf p ≠ .fg then .fault .notOwner
    else if t.hasRoom .txq then
      andThen ((t.tryAddTail .txq p).transfer p .fg .txq) fun u => .next (u.answer (.bit true))
    else .next ((t.tryAddTail .txq p).answer (.bit false))

/-- FG.PROCESS (R224): at most one packet goes from the outbound queue to an idle TX; one that TX rejects goes back to the
store. DESIGN CHOICE (log 35): a rejected packet that the outbound queue does not own, such as one of the foreground's put
there by a bare Q.ADDTAIL, faults as returnByNonOwner, while an accepted one of the foreground's is sent. -/
def execFgProcess (s : State) : Res :=
  whenReady s <| inSection s fun t =>
    if t.txState = .idle then
      match t.txq with
      | [] => .next t
      | p :: _ =>
        let u := t.removeHead .txq
        if u.submitRow (some p) = .accept then
          andThen (execTxSubmitAccept p u) fun v => .next (v.answer .none)
        else
          andThen (execTxSubmitReject (some p) u) fun v =>
          andThen (v.returnPacket .txq p) fun w => .next (w.answer .none)
    else .next t

/-- FG.RECV (R225). DESIGN CHOICE (log 35): a head that the inbound queue does not own, such as one of the foreground's put
there by a bare Q.ADDTAIL, faults as notOwner. -/
def execFgRecv (s : State) : Res :=
  whenReady s <| inSection s fun t =>
    match t.rxq with
    | [] => .next ((t.removeHead .rxq).answer (.handle none))
    | p :: _ => andThen ((t.removeHead .rxq).transfer p .rxq .fg) fun u => .next (u.answer (.handle (some p)))

/-- FG.QUERY (R226). -/
def execFgQuery (q : QName) (f : QueryFn) (s : State) : Res :=
  whenReady s <| inSection s fun t =>
    .next (t.answer
      (match f with
      | .isEmpty => t.isEmptyAnswer q
      | .isFull => t.isFullAnswer q
      | .size => t.sizeAnswer q))

end Sys2Proof.Machine
end

