-- ==== Sys2Proof/Machine/Dispatch.lean ====
section
/-! DEFINITION. One arm per operation: the instruction to its meaning. -/

namespace Sys2Proof.Machine

def exec (i : Instr) (s : State) : Host.Outcome State Fault Refusal :=
  match i with
  | .csumSeed a b => Sys2Proof.Machine.execCsumSeed a b s
  | .csumAcc a b => Sys2Proof.Machine.execCsumAcc a b s
  | .csumCompl a => Sys2Proof.Machine.execCsumCompl a s
  | .csumPair a b => Sys2Proof.Machine.execCsumPair a b s
  | .csumMatch a b => Sys2Proof.Machine.execCsumMatch a b s
  | .txSubmitReject p => Sys2Proof.Machine.execTxSubmitReject p s
  | .txSubmitAccept p => Sys2Proof.Machine.execTxSubmitAccept p s
  | .txAdvIdle => Sys2Proof.Machine.execTxAdvIdle s
  | .txAdvSizecheck => Sys2Proof.Machine.execTxAdvSizecheck s
  | .txAdvBody => Sys2Proof.Machine.execTxAdvBody s
  | .txAdvTrailer => Sys2Proof.Machine.execTxAdvTrailer s
  | .rxIdleAccept b => Sys2Proof.Machine.execRxIdleAccept b s
  | .rxIdleDiscard b => Sys2Proof.Machine.execRxIdleDiscard b s
  | .rxAwaitValid b => Sys2Proof.Machine.execRxAwaitValid b s
  | .rxAwaitNobuf b => Sys2Proof.Machine.execRxAwaitNobuf b s
  | .rxAwaitResync b => Sys2Proof.Machine.execRxAwaitResync b s
  | .rxBodyStore b => Sys2Proof.Machine.execRxBodyStore b s
  | .rxBodyGood b => Sys2Proof.Machine.execRxBodyGood b s
  | .rxBodyGoodQfull b => Sys2Proof.Machine.execRxBodyGoodQfull b s
  | .rxBodyBad b => Sys2Proof.Machine.execRxBodyBad b s
  | .rxDrain => Sys2Proof.Machine.execRxDrain s
  | .rxOvrClear => Sys2Proof.Machine.execRxOvrClear s
  | .sysInit n m cb => Sys2Proof.Machine.execSysInit n m cb s
  | .sysCritEnter => Sys2Proof.Machine.execSysCritEnter s
  | .sysCritLeave => Sys2Proof.Machine.execSysCritLeave s
  | .fgSend p => Sys2Proof.Machine.execFgSend p s
  | .fgProcess => Sys2Proof.Machine.execFgProcess s
  | .fgRecv => Sys2Proof.Machine.execFgRecv s
  | .fgQuery q f => Sys2Proof.Machine.execFgQuery q f s
  | .storeRequest c d => Sys2Proof.Machine.execStoreRequest c d s
  | .storeReturn c p => Sys2Proof.Machine.execStoreReturn c p s
  | .qAddtail q p => Sys2Proof.Machine.execQAddtail q p s
  | .qRemhead q => Sys2Proof.Machine.execQRemhead q s
  | .qRemtail q => Sys2Proof.Machine.execQRemtail q s
  | .qIsempty q => Sys2Proof.Machine.execQIsempty q s
  | .qIsfull q => Sys2Proof.Machine.execQIsfull q s
  | .qSize q => Sys2Proof.Machine.execQSize q s
  | .chWrite b => Sys2Proof.Machine.execChWrite b s
  | .chAvail => Sys2Proof.Machine.execChAvail s
  | .chRead => Sys2Proof.Machine.execChRead s
  | .chOvrclr => Sys2Proof.Machine.execChOvrclr s
  | .chIrqen src on => Sys2Proof.Machine.execChIrqen src on s
  | .envRxbyte b => Sys2Proof.Machine.execEnvRxbyte b s
  | .envRxlose => Sys2Proof.Machine.execEnvRxlose s
  | .envTxrdy => Sys2Proof.Machine.execEnvTxrdy s
  | .envRxrdy => Sys2Proof.Machine.execEnvRxrdy s

end Sys2Proof.Machine
end

