-- ==== Sys2Proof/Machine/Fetch.lean ====
section
/-! DEFINITION. Making one move of a run (`43_system.md` R233), and what the machine does when no agent has one. -/

namespace Sys2Proof.Machine

/-- The foreground writes a cell of a packet it owns (R62, R227). -/
def fgWrite (p : Handle) (off : Nat) (v : Byte) (s : State) : Res :=
  whenReady s ((s.answer .none).memWrite .fg p off v)

/-- The foreground reads a cell of a packet it owns (R62, R90). -/
def fgRead (p : Handle) (off : Nat) (s : State) : Res :=
  whenReady s
    (match s.memRead .fg p off with
    | .ok b => .next (s.answer (.byte b))
    | .error f => .fault f)

/-- Make one move: a call is decoded in the state it finds and run. -/
def perform (m : Move) (s : State) : Res :=
  match m with
  | .call c =>
    match decode s c with
    | .ok i => exec i s
    | .error r => .refused (.undecodable r)
  | .write p off v => fgWrite p off v s
  | .read p off => fgRead p off s

/-- Whether an event is pending and its enable is 1. -/
def State.serviceable (s : State) (src : Source) : Bool := s.pending src && s.enabled src

/-- With no move left, a pending event whose enable is 1 is served (R271); of two, either may come first (R272), which a
free bit decides (log 7); with none, the machine stays as it is (R282). -/
def idleStep (s : State) : Res :=
  if s.serviceable .txrdy then
    if s.serviceable .rxrdy then
      if Config.freeBit s.freeCtr then txAdv { s with freeCtr := s.freeCtr + 1 }
      else execRxDrain { s with freeCtr := s.freeCtr + 1 }
    else txAdv s
  else if s.serviceable .rxrdy then execRxDrain s
  else .next s

/-- `RX.FEED(b0 b1 ... bk)` (R118). -/
def rxFeed (bytes : List Byte) : List Move := bytes.map fun b => .call ⟨.rxByte, [b]⟩

/-- `TX.FRAME(p)` (R118) of a packet of length `n`: a submission and `n + 2` runs of TX.ADV. -/
def txFrame (p : Handle) (n : Nat) : List Move :=
  .call ⟨.txSubmit (some p), []⟩ :: List.replicate (n + 2) (.call ⟨.txAdv, []⟩)

/-- The state in which the next step runs the operation of a table word (log 19). -/
def loadWord (s : State) (nbits w : Nat) : State :=
  match probeCall s nbits w with
  | some c => { probeState s with program := .call c :: s.program }
  | none => s

end Sys2Proof.Machine
end

