-- ==== Sys2Proof/Machine/Step.lean ====
section
/-! DEFINITION. One step: the next move of the program leaves it and is made (`43_system.md` R233). -/

namespace Sys2Proof.Machine

/-- One step of the machine. -/
def step (s : State) : Host.Outcome State Fault Refusal :=
  match s.program with
  | [] => idleStep s
  | m :: rest => perform m { s with program := rest }

/-- The operation of a table word placed so that the very next step runs it (log 19). -/
def State.withFetchWord (s : State) (nbits w : Nat) : State := loadWord s nbits w

end Sys2Proof.Machine
end

