-- ==== Sys2Proof/Safety.lean ====
section
/-! DEFINITION. The terms statements are written in: the guards of the operation map in the spec's own words (R115), the
moves of a run (R233), and the invariants of every reachable state (R48). -/

namespace Sys2Proof.Machine

/-- `tx_off = len(tx_pkt)`; it does not hold where one of them is absent or the packet has no length (log 34). -/
def TxAtLength (s : State) : Prop :=
  ∃ p o, s.txPkt = some p ∧ s.txOff = some o ∧ s.packets.lenOf p = some o

/-- `rx_off = len(rx_pkt)`; it does not hold where one of them is absent or the packet has no length (log 34). -/
def RxAtLength (s : State) : Prop :=
  ∃ p o, s.rxPkt = some p ∧ s.rxOff = some o ∧ s.packets.lenOf p = some o

/-- `(rx_csum XOR b) = 0xFF` and `in_bounds(rx_size)`, for the candidate `size`. -/
def PairInBounds (s : State) (b size : Byte) : Prop :=
  s.rxSize = some size ∧ s.accValue .rx ^^^ b = 0xFF#8 ∧ 3 + s.params.headerLength ≤ size.toNat ∧
    size.toNat < s.params.maxFrameSize

/-- The request length of a candidate: `rx_size - HEADER_LENGTH - 3` (R108). -/
def requestLengthOf (s : State) (size : Byte) : Nat := size.toNat - s.params.headerLength - 3

/-- The columns "state" and "guard" of the operation map (R115), and who may invoke STORE.REQUEST; the rows whose columns
say `any` or nothing are selected by their name. A handle in the store has no length and selects TX.SUBMIT.ACCEPT (log 10);
an accumulator that holds no value is a free byte (log 6); an absent `rx_size` makes no pair (log 33);
an absent packet, offset or length is not at the end of the body (log 34). -/
def RowSelected (s : State) : Instr → Prop
  | .txSubmitReject p =>
    s.txState ≠ .idle ∨ p = none ∨ ∃ h n, p = some h ∧ s.packets.lenOf h = some n ∧ s.params.maxFrameSize ≤ n
  | .txSubmitAccept p => s.txState = .idle ∧ ∀ n, s.packets.lenOf p = some n → n < s.params.maxFrameSize
  | .txAdvIdle => s.txState = .idle
  | .txAdvSizecheck => s.txState = .sendingSize
  | .txAdvBody => s.txState = .sendingBody ∧ ¬ TxAtLength s
  | .txAdvTrailer => s.txState = .sendingBody ∧ TxAtLength s
  | .rxIdleAccept b => s.rxState = .idle ∧ b.toNat < s.params.maxFrameSize
  | .rxIdleDiscard b => s.rxState = .idle ∧ s.params.maxFrameSize ≤ b.toNat
  | .rxAwaitValid b =>
    s.rxState = .awaitSizecheck ∧ ∃ size, PairInBounds s b size ∧ s.storeAnswer (requestLengthOf s size) ≠ none
  | .rxAwaitNobuf b =>
    s.rxState = .awaitSizecheck ∧ ∃ size, PairInBounds s b size ∧ s.storeAnswer (requestLengthOf s size) = none
  | .rxAwaitResync b => s.rxState = .awaitSizecheck ∧ ¬ ∃ size, PairInBounds s b size
  | .rxBodyStore _ => s.rxState = .receivingBody ∧ ¬ RxAtLength s
  | .rxBodyGood b => s.rxState = .receivingBody ∧ RxAtLength s ∧ b = s.accValue .rx ∧ s.rxq.length < s.rxqCap
  | .rxBodyGoodQfull b =>
    s.rxState = .receivingBody ∧ RxAtLength s ∧ b = s.accValue .rx ∧ ¬ s.rxq.length < s.rxqCap
  | .rxBodyBad b => s.rxState = .receivingBody ∧ RxAtLength s ∧ b ≠ s.accValue .rx
  | .rxOvrClear => s.chanOvr = true
  | .sysInit _ _ _ => s.initialised = false
  | .storeRequest c _ => c ≠ .txi
  | _ => True

/-- One of the nine rows of RX.BYTE. -/
def isRxByteRow : Instr → Bool
  | .rxIdleAccept _ | .rxIdleDiscard _ | .rxAwaitValid _ | .rxAwaitNobuf _ | .rxAwaitResync _ | .rxBodyStore _
  | .rxBodyGood _ | .rxBodyGoodQfull _ | .rxBodyBad _ => true
  | _ => false

/-- One of the six rows of TX.SUBMIT and TX.ADV. -/
def isTxRow : Instr → Bool
  | .txSubmitReject _ | .txSubmitAccept _ | .txAdvIdle | .txAdvSizecheck | .txAdvBody | .txAdvTrailer => true
  | _ => false

/-- The calls a run is made of (R233): the foreground operations, the foreground's own calls of the store, the critical
section, the moves of the environment, the two handlers, and TX.SUBMIT and RX.BYTE, which the spec's own vectors call. -/
def isRunCall (c : Call) : Bool :=
  match c.entry with
  | .txSubmit _ | .txAdv | .rxByte | .rxDrain | .rxOvrClear | .sysInit _ _ _ | .sysCritEnter | .sysCritLeave | .fgSend _
  | .fgProcess | .fgRecv | .fgQuery _ _ | .envRxbyte | .envRxlose | .envTxrdy | .envRxrdy => true
  | .storeRequest c _ => c == .fg
  | .storeReturn c _ => c == .fg
  | _ => false

/-- A move of a run (R233). -/
def isRunMove : Move → Bool
  | .call c => isRunCall c
  | .write _ _ _ => true
  | .read _ _ => true

/-- Cells 0 to `n - 1` of a packet, if all of them are written. -/
def firstCells (m : Memory) (p : Handle) (n : Nat) : Option (List Byte) :=
  match lookup p.id m with
  | some k => cellsFrom k.cells 0 n
  | none => none

/-- What changes when a packet passes to another owner that is not the store: the owner of that packet, and no length and
no cell of any packet. -/
def OwnerPasses (m m' : Memory) (p : Handle) (o : Owner) : Prop :=
  (∀ q, m'.ownerOf q = if q = p then o else m.ownerOf q) ∧ (∀ q, m'.lenOf q = m.lenOf q) ∧
    ∀ q i, m'.cell q i = m.cell q i

/-- What changes when a packet goes back to the store: its owner is STORE, and every other packet is as it was. -/
def GoesToStore (m m' : Memory) (p : Handle) : Prop :=
  m'.ownerOf p = .store ∧ ∀ q, q ≠ p → lookup q.id m' = lookup q.id m

/-- What changes when a packet leaves the store: owner and length given, every cell unwritten, and every other packet is
as it was. -/
def LeavesStore (m m' : Memory) (p : Handle) (o : Owner) (len : Nat) : Prop :=
  m'.ownerOf p = o ∧ m'.lenOf p = some len ∧ (∀ i, m'.cell p i = none) ∧ ∀ q, q ≠ p → lookup q.id m' = lookup q.id m

/-- What changes when one cell is written: that cell, and no owner, no length and no other cell. -/
def CellWritten (m m' : Memory) (p : Handle) (i : Nat) (v : Byte) : Prop :=
  (∀ q j, m'.cell q j = if q = p ∧ j = i then some v else m.cell q j) ∧ (∀ q, m'.ownerOf q = m.ownerOf q) ∧
    ∀ q, m'.lenOf q = m.lenOf q

/-- Whose packet TX.SUBMIT may be given: the foreground's, or one that FG.PROCESS has taken off the outbound queue (R89). -/
def MaySubmit (s : State) (p : Handle) : Prop :=
  s.packets.ownerOf p = .fg ∨ (s.packets.ownerOf p = .txq ∧ p ∉ s.txq)

/-- The invariants of every reachable state (R48, with the tables of R25 and R31 and the canonical form of the memory). -/
structure Inv (s : State) : Prop where
  /-- Parameters in their constraint, SYS.INIT run (R10, R47). -/
  ready : s.ready = true
  /-- The memory is canonical. -/
  memory : s.packets.wf = true
  /-- R48 (a). -/
  txIdle : s.txState = .idle ↔ s.txPkt = none
  /-- R25: in TX_IDLE `tx_csum` holds no value, and `tx_off` holds one only in TX_SENDING_BODY. -/
  txAbsent : (s.txState = .idle → s.txCsum = none) ∧ (s.txState ≠ .sendingBody → s.txOff = none)
  /-- R25, R48 (f): in TX_SENDING_SIZE the accumulator holds Size. -/
  txSize : s.txState = .sendingSize →
    ∃ p n, s.txPkt = some p ∧ s.packets.lenOf p = some n ∧ n < s.params.maxFrameSize ∧
      s.txCsum = some (BitVec.ofNat 8 (n + 3))
  /-- R25, R48 (e) (f): in TX_SENDING_BODY the offset is at most the length, and the accumulator holds the closed form. -/
  txBody : s.txState = .sendingBody →
    ∃ p n o bytes, s.txPkt = some p ∧ s.packets.lenOf p = some n ∧ n < s.params.maxFrameSize ∧ s.txOff = some o ∧
      o ≤ n ∧ firstCells s.packets p o = some bytes ∧ s.txCsum = some (checksumOf bytes)
  /-- R48 (b). -/
  rxBodyPkt : s.rxState = .receivingBody ↔ s.rxPkt ≠ none
  /-- R31: in RX_IDLE no register but `rx_state` and `rx_pkt` holds a value. -/
  rxIdle : s.rxState = .idle → s.rxSize = none ∧ s.rxOff = none ∧ s.rxCsum = none
  /-- R31, R48 (c). -/
  rxAwait : s.rxState = .awaitSizecheck → s.rxOff = none ∧ ∃ b, s.rxSize = some b ∧ s.rxCsum = some b
  /-- R31, R48 (d) (f). -/
  rxBody : s.rxState = .receivingBody →
    ∃ p size o bytes, s.rxPkt = some p ∧ s.rxSize = some size ∧ 3 + s.params.headerLength ≤ size.toNat ∧
      size.toNat < s.params.maxFrameSize ∧ s.packets.lenOf p = some (size.toNat - 3) ∧ s.rxOff = some o ∧
      o ≤ size.toNat - 3 ∧ firstCells s.packets p o = some bytes ∧ s.rxCsum = some (checksumOf bytes)
  /-- R48 (g). -/
  bounds : s.txq.length ≤ s.txqCap ∧ s.rxq.length ≤ s.rxqCap
  /-- R48 (h), and no packet of TX or RX is out of their reach (R315). -/
  ownedTx : ∀ p, s.packets.ownerOf p = .tx ↔ s.txPkt = some p
  /-- R48 (h). -/
  ownedRx : ∀ p, s.packets.ownerOf p = .rx ↔ s.rxPkt = some p
  /-- R48 (h). -/
  ownedTxq : ∀ p, s.packets.ownerOf p = .txq ↔ p ∈ s.txq
  /-- R48 (h). -/
  ownedRxq : ∀ p, s.packets.ownerOf p = .rxq ↔ p ∈ s.rxq
  /-- R48 (h): no handle twice in a queue. -/
  once : s.txq.Nodup ∧ s.rxq.Nodup
  /-- R271: no operation of a run disables one source alone. -/
  enables : s.irqTxEn = s.irqRxEn
  /-- What is still to come are moves of a run (R233). -/
  run : ∀ m ∈ s.program, isRunMove m = true

/-- Quiescent (R233). -/
def Quiescent (s : State) : Prop :=
  s.txState = .idle ∧ s.rxState = .idle ∧ s.chanRxbuf = [] ∧ s.txq = []

end Sys2Proof.Machine
end

