-- ==== Sys2Proof/Certificates/Slice0/Obligations.lean ====
section
/-! DEFINITION. The statements for the provers. Each docstring names the rule of the spec it formalises. An equation
`exec i s = .next { s with … }` is the result, the completion and the frame of an operation at once: every field not named
is unchanged. Where packets change, what changes in them is said through what can be read: owners, lengths, cells. -/

open Sys2Proof Sys2Proof.Machine

/-! ### Reset and the instance -/

/-- R220, R46 (the spec's own decision D12): SYS.INIT puts every register at its reset value and leaves the channel's
flag, buffer and pending marks and all packets as they are. -/
def Obligations.InitPutsRegistersAtResetValues : Prop :=
  ∀ (s : State) (n m : Nat) (cb : Callback), s.params.ok = true → s.initialised = false →
    exec (.sysInit n m cb) s = .next
      { s with
        initialised := true, txqCap := n, txq := [], rxqCap := m, rxq := [], rxCallback := cb
        txState := .idle, txPkt := none, txOff := none, txCsum := none
        rxState := .idle, rxPkt := none, rxOff := none, rxCsum := none, rxSize := none
        irqTxEn := true, irqRxEn := true, trace := [], result := .none }

/-- R47 (the spec's own decision D26): before SYS.INIT every other operation is refused, and a second SYS.INIT is
refused. -/
def Obligations.OnlyInitRunsBeforeInitAndOnlyOnce : Prop :=
  (∀ (i : Instr) (s : State), s.params.ok = true → s.initialised = false → (∀ n m cb, i ≠ .sysInit n m cb) →
    exec i s = .refused .uninitialised) ∧
  ∀ (s : State) (n m : Nat) (cb : Callback), s.params.ok = true → s.initialised = true →
    exec (.sysInit n m cb) s = .refused .alreadyInitialised

/-- R20, R38, R39: the parameters are never written, and on an initialised block no operation writes the callback or the
capacities. -/
def Obligations.ConfigurationIsFixedAfterInit : Prop :=
  ∀ (i : Instr) (s t : State), exec i s = .next t →
    t.params = s.params ∧
    (s.initialised = true → t.initialised = true ∧ t.rxCallback = s.rxCallback ∧ t.txqCap = s.txqCap ∧ t.rxqCap = s.rxqCap)

/-! ### The checksum accumulators -/

/-- R131, R132: CSUM.SEED makes the accumulator the byte, whatever it held; CSUM.ACC adds the byte modulo 256. -/
def Obligations.CsumSeedAndAccWriteTheAccumulator : Prop :=
  ∀ (s : State) (b c : Byte), s.ready = true →
    exec (.csumSeed .tx b) s = .next { s with txCsum := some b, result := .none } ∧
    exec (.csumSeed .rx b) s = .next { s with rxCsum := some b, result := .none } ∧
    (s.txCsum = some c →
      exec (.csumAcc .tx b) s =
        .next { s with txCsum := some (BitVec.ofNat 8 ((c.toNat + b.toNat) % 256)), result := .none }) ∧
    (s.rxCsum = some c →
      exec (.csumAcc .rx b) s =
        .next { s with rxCsum := some (BitVec.ofNat 8 ((c.toNat + b.toNat) % 256)), result := .none })

/-- R133, R134, R135: COMPL answers `255 - c`, PAIR whether `c + b = 255`, MATCH whether `b = c`; no register changes. -/
def Obligations.CsumTestsAnswerWithoutChange : Prop :=
  ∀ (s : State) (a : Acc) (b c : Byte), s.ready = true → s.acc a = some c →
    exec (.csumCompl a) s = .next { s with result := .byte (BitVec.ofNat 8 (255 - c.toNat)) } ∧
    exec (.csumPair a b) s = .next { s with result := .bit (decide (c.toNat + b.toNat = 255)) } ∧
    exec (.csumMatch a b) s = .next { s with result := .bit (decide (b = c)) }

/-- The model's choice (log 6): on an accumulator that holds no value ACC, COMPL, PAIR and MATCH still run, on a
free byte, which nothing constrains, and use it up. ACC leaves the sum in the accumulator; the others leave it
absent. Every other field is unchanged but the result. -/
def Obligations.AbsentAccumulatorReadsAsAFreeByte : Prop :=
  ∀ (s : State) (a : Acc) (b : Byte), s.ready = true → s.acc a = none →
    exec (.csumAcc a b) s =
      .next { s.setAcc a (some (Config.freeByte s.freeCtr + b)) with freeCtr := s.freeCtr + 1, result := .none } ∧
    exec (.csumCompl a) s =
      .next { s with result := .byte (Config.freeByte s.freeCtr ^^^ 0xFF#8), freeCtr := s.freeCtr + 1 } ∧
    exec (.csumPair a b) s =
      .next { s with result := .bit (decide (Config.freeByte s.freeCtr ^^^ b = 0xFF#8)), freeCtr := s.freeCtr + 1 } ∧
    exec (.csumMatch a b) s =
      .next { s with result := .bit (decide (b = Config.freeByte s.freeCtr)), freeCtr := s.freeCtr + 1 }

/-- R139, R140 (derived by the spec): seeding with any Size and adding its complement and the payload gives the closed
form, which does not depend on Size; an empty payload has Checksum 0xFF; the sum of all bytes of a frame is twice its
Checksum modulo 256. A change of exactly one payload byte changes the Checksum; a reordering of payload bytes does
not. -/
def Obligations.RunningSumIsTheClosedForm : Prop :=
  (∀ (size : Byte) (P : List Byte),
    P.foldl accByte (accByte size (complByte size)) = BitVec.ofNat 8 ((255 + byteSum P) % 256)) ∧
  checksumOf [] = 0xFF#8 ∧
  (∀ P : List Byte, P.length ≤ 252 →
    BitVec.ofNat 8 (byteSum (frame P)) = BitVec.ofNat 8 (2 * (checksumOf P).toNat)) ∧
  (∀ (xs ys : List Byte) (a b : Byte), checksumOf (xs ++ a :: ys) = checksumOf (xs ++ b :: ys) → a = b) ∧
  ∀ P Q : List Byte, P.Perm Q → checksumOf P = checksumOf Q

/-! ### The transmit machine -/

/-- R151: a submission to a busy TX, of no packet, or of a packet too long, answers `false`, names its cause on the trace
in that order, and changes nothing else. -/
def Obligations.SubmitRejectChangesNothing : Prop :=
  ∀ (s : State), s.ready = true →
    (∀ p, s.txState ≠ .idle →
      exec (.txSubmitReject p) s = .next { s with trace := s.trace ++ [.outcome .submitBusy], result := .bit false }) ∧
    (s.txState = .idle →
      exec (.txSubmitReject none) s =
        .next { s with trace := s.trace ++ [.outcome .submitNull], result := .bit false }) ∧
    (∀ h n, s.txState = .idle → MaySubmit s h → s.packets.lenOf h = some n → s.params.maxFrameSize ≤ n →
      exec (.txSubmitReject (some h)) s =
        .next { s with trace := s.trace ++ [.outcome .submitOversize], result := .bit false })

/-- R152: an accepted submission seeds the accumulator with Size, writes Size to the wire, and owns the packet. A packet the
idle machine still marks as held goes back to the store first. -/
def Obligations.SubmitAcceptStartsAFrame : Prop :=
  ∀ (s : State) (p : Handle) (n : Nat), s.ready = true → s.txState = .idle → MaySubmit s p →
    s.packets.lenOf p = some n → n < s.params.maxFrameSize →
    n + 3 ≤ 255 ∧
    (s.txPkt = none →
      ∃ t, exec (.txSubmitAccept p) s = .next t ∧
        t = { s with
          txState := .sendingSize, txPkt := some p, txCsum := some (BitVec.ofNat 8 (n + 3)), packets := t.packets
          trace := s.trace ++ [.wireOut (BitVec.ofNat 8 (n + 3))], result := .bit true } ∧
        OwnerPasses s.packets t.packets p .tx) ∧
    ∀ q, s.txPkt = some q → s.packets.ownerOf q = .tx →
      ∃ t, exec (.txSubmitAccept p) s = .next t ∧
        t = { s with
          txState := .sendingSize, txPkt := some p, txCsum := some (BitVec.ofNat 8 (n + 3)), packets := t.packets
          trace := s.trace ++ [.storeRet q, .wireOut (BitVec.ofNat 8 (n + 3))], result := .bit true } ∧
        t.packets.ownerOf q = .store ∧ t.packets.ownerOf p = .tx ∧ t.packets.lenOf p = some n ∧
        (∀ i, t.packets.cell p i = s.packets.cell p i) ∧
        ∀ r, r ≠ p → r ≠ q → lookup r.id t.packets = lookup r.id s.packets

/-- The model's choices (log 10, log 24) on R153 and R90: a packet that is neither the foreground's nor taken off the
outbound queue faults, whichever row its length selects (one that the idle machine still marks as held and TX still
owns among them), and a packet the idle machine still marks as held that may be submitted is refused as a new
submission. -/
def Obligations.SubmitOfAnotherOwnersPacketStops : Prop :=
  ∀ (s : State) (p : Handle), s.ready = true → s.txState = .idle →
    (¬ MaySubmit s p → (∀ n, s.packets.lenOf p = some n → n < s.params.maxFrameSize) →
      exec (.txSubmitAccept p) s = .fault .notOwner) ∧
    (¬ MaySubmit s p → (∃ n, s.packets.lenOf p = some n ∧ s.params.maxFrameSize ≤ n) →
      exec (.txSubmitReject (some p)) s = .fault .notOwner) ∧
    (MaySubmit s p → s.txPkt = some p → (∀ n, s.packets.lenOf p = some n → n < s.params.maxFrameSize) →
      exec (.txSubmitAccept p) s = .refused .danglingResubmit)

/-- R155 (the spec's own decision D7): a transmit-ready event while TX is idle writes nothing and changes no register.
-/
def Obligations.TxReadyWhileIdleDoesNothing : Prop :=
  ∀ s : State, s.ready = true → s.irqTxEn = true → s.txState = .idle →
    exec .txAdvIdle s = .next { s with txrdyPending := false, result := .none }

/-- R156: SizeCheck is the complement of the accumulator, which becomes 0xFF. -/
def Obligations.TxWritesSizeCheck : Prop :=
  ∀ (s : State) (c : Byte), s.ready = true → s.irqTxEn = true → s.txState = .sendingSize → s.txCsum = some c →
    exec .txAdvSizecheck s = .next
      { s with
        txState := .sendingBody, txOff := some 0, txCsum := some 0xFF#8, txrdyPending := false
        trace := s.trace ++ [.wireOut (BitVec.ofNat 8 (255 - c.toNat))], result := .none }

/-- R157, R63: the payload byte at the offset is read now, written to the wire and accumulated; a cell nothing has written is
a fault. -/
def Obligations.TxWritesOnePayloadByte : Prop :=
  ∀ (s : State) (p : Handle) (o n : Nat), s.ready = true → s.irqTxEn = true → s.txState = .sendingBody →
    s.txPkt = some p → s.txOff = some o → s.packets.ownerOf p = .tx → s.packets.lenOf p = some n → o < n →
    (∀ b c, s.txCsum = some c → s.packets.cell p o = some b →
      exec .txAdvBody s = .next
        { s with
          txOff := some (o + 1), txCsum := some (BitVec.ofNat 8 ((c.toNat + b.toNat) % 256)), txrdyPending := false
          trace := s.trace ++ [.wireOut b], result := .none }) ∧
    (s.packets.cell p o = none → exec .txAdvBody s = .fault .unwrittenCell)

/-- R158 (with the spec's own decision D8 on tx_pkt): the Checksum is written, the packet goes back to the store, TX
is idle and its registers hold no value. -/
def Obligations.TxWritesTheTrailer : Prop :=
  ∀ (s : State) (p : Handle) (o : Nat) (c : Byte), s.ready = true → s.irqTxEn = true → s.txState = .sendingBody →
    s.txPkt = some p → s.txOff = some o → s.txCsum = some c → s.packets.ownerOf p = .tx →
    s.packets.lenOf p = some o →
    ∃ t, exec .txAdvTrailer s = .next t ∧
      t = { s with
        txState := .idle, txPkt := none, txOff := none, txCsum := none, txrdyPending := false, packets := t.packets
        trace := s.trace ++ [.wireOut c, .storeRet p], result := .none } ∧
      GoesToStore s.packets t.packets p

/-- R162 (derived by the spec): the only transitions of TX, of any operation of an initialised block; a non-idle TX
becomes idle only with every payload byte sent. -/
def Obligations.TxTransitionsAreTheListedOnes : Prop :=
  ∀ (i : Instr) (s t : State), s.initialised = true → exec i s = .next t →
    (s.txState = .idle → t.txState = .idle ∨ t.txState = .sendingSize) ∧
    (s.txState = .sendingSize → t.txState = .sendingSize ∨ (t.txState = .sendingBody ∧ t.txOff = some 0)) ∧
    (s.txState = .sendingBody →
      (t.txState = .sendingBody ∧ (t.txOff = s.txOff ∨ ∃ o, s.txOff = some o ∧ t.txOff = some (o + 1))) ∨
      (t.txState = .idle ∧ TxAtLength s ∧ t.txPkt = none))

/-- R160, R159 (derived by the spec): a submission and `len(p) + 2` runs of TX.ADV emit exactly `frame(pay(p))`,
return the packet once, at the end, and leave TX idle. -/
def Obligations.TxFrameEmitsExactlyTheFrame : Prop :=
  ∀ (s : State) (p : Handle) (P : List Byte) (rest : List Move), s.ready = true → s.irqTxEn = true →
    s.txState = .idle → s.txPkt = none → MaySubmit s p → s.packets.payload p = some P →
    P.length < s.params.maxFrameSize →
    ∃ t, core.run (P.length + 3) { s with program := txFrame p P.length ++ rest } = .next t ∧
      t = { s with
        txOff := none, txCsum := none, txrdyPending := false, packets := t.packets
        trace := s.trace ++ (frame P).map Event.wireOut ++ [.storeRet p], result := .none, program := rest } ∧
      GoesToStore s.packets t.packets p

/-! ### The receive machine -/

/-- R182, R183, R261: in RX_IDLE a byte below MAX_FRAME_SIZE becomes the candidate and the seed; any other byte is dropped
and only the trace names it. -/
def Obligations.RxIdleTakesACandidateOrDropsTheByte : Prop :=
  ∀ (s : State) (b : Byte), s.ready = true → s.rxState = .idle →
    (b.toNat < s.params.maxFrameSize →
      exec (.rxIdleAccept b) s = .next
        { s with rxState := .awaitSizecheck, rxSize := some b, rxCsum := some b, result := .none }) ∧
    (s.params.maxFrameSize ≤ b.toNat →
      exec (.rxIdleDiscard b) s = .next { s with trace := s.trace ++ [.outcome .framing], result := .none })

/-- R185, with R64 and R63 (the spec's own decisions D4 and D19; the list of answers is the model's, log 5): a valid
pair asks the store for `rx_size - HEADER_LENGTH - 3`, gets a packet of `rx_size - 3` unwritten cells, and starts
the body at offset 0 with the accumulator at 0xFF. -/
def Obligations.RxValidPairObtainsAPacket : Prop :=
  ∀ (s : State) (size b : Byte) (p : Handle), s.ready = true → s.rxState = .awaitSizecheck → s.rxSize = some size →
    s.rxCsum = some size → size.toNat + b.toNat = 255 → 3 + s.params.headerLength ≤ size.toNat →
    size.toNat < s.params.maxFrameSize → s.storeAnswer (size.toNat - s.params.headerLength - 3) = some p →
    ∃ t, exec (.rxAwaitValid b) s = .next t ∧
      t = { s with
        rxState := .receivingBody, rxPkt := some p, rxOff := some 0, rxCsum := some 0xFF#8, packets := t.packets
        trace := s.trace ++ [.storeReq (size.toNat - s.params.headerLength - 3) (some p)], result := .none
        storeInput := s.storeInput.tail, freeCtr := t.freeCtr } ∧
      s.packets.ownerOf p = .store ∧ LeavesStore s.packets t.packets p .rx (size.toNat - 3)

/-- R186 (the spec's own decision D6): the same pair with no packet drops the frame: RX idle, nothing held. -/
def Obligations.RxValidPairWithoutAPacketIsDropped : Prop :=
  ∀ (s : State) (size b : Byte), s.ready = true → s.rxState = .awaitSizecheck → s.rxPkt = none → s.rxOff = none →
    s.rxSize = some size → s.rxCsum = some size → size.toNat + b.toNat = 255 →
    3 + s.params.headerLength ≤ size.toNat → size.toNat < s.params.maxFrameSize →
    s.storeAnswer (size.toNat - s.params.headerLength - 3) = none →
    ∃ t, exec (.rxAwaitNobuf b) s = .next t ∧
      t = { s with
        rxState := .idle, rxSize := none, rxCsum := none
        trace := s.trace ++ [.storeReq (size.toNat - s.params.headerLength - 3) none, .outcome (.nobuf size)]
        result := .none, storeInput := s.storeInput.tail, freeCtr := t.freeCtr }

/-- R187: a byte that does not complete a pair in bounds becomes the new candidate, whatever its value. -/
def Obligations.RxResyncTakesTheByteAsCandidate : Prop :=
  ∀ (s : State) (size c b : Byte), s.ready = true → s.rxState = .awaitSizecheck → s.rxSize = some size →
    s.rxCsum = some c →
    (c.toNat + b.toNat ≠ 255 ∨ ¬ (3 + s.params.headerLength ≤ size.toNat ∧ size.toNat < s.params.maxFrameSize)) →
    exec (.rxAwaitResync b) s = .next
      { s with rxSize := some b, rxCsum := some b, trace := s.trace ++ [.outcome .framing], result := .none }

/-- R188: one payload byte is stored at the offset and accumulated. -/
def Obligations.RxStoresOnePayloadByte : Prop :=
  ∀ (s : State) (p : Handle) (o n : Nat) (b c : Byte), s.ready = true → s.rxState = .receivingBody →
    s.rxPkt = some p → s.rxOff = some o → s.rxCsum = some c → s.packets.ownerOf p = .rx →
    s.packets.lenOf p = some n → o < n →
    ∃ t, exec (.rxBodyStore b) s = .next t ∧
      t = { s with
        rxOff := some (o + 1), rxCsum := some (BitVec.ofNat 8 ((c.toNat + b.toNat) % 256)), packets := t.packets
        result := .none } ∧
      CellWritten s.packets t.packets p o b

/-- R189, R194: a matching Checksum runs the callback with the payload, then queues the packet; RX is idle. -/
def Obligations.RxGoodFrameIsCalledBackAndQueued : Prop :=
  ∀ (s : State) (p : Handle) (n : Nat) (b : Byte) (P : List Byte), s.ready = true → s.rxState = .receivingBody →
    s.rxPkt = some p → s.rxOff = some n → s.packets.lenOf p = some n → s.rxCsum = some b →
    s.packets.ownerOf p = .rx → s.packets.payload p = some P → s.rxq.length < s.rxqCap →
    ∃ t, exec (.rxBodyGood b) s = .next t ∧
      t = { s with
        rxState := .idle, rxPkt := none, rxOff := none, rxCsum := none, rxSize := none, rxq := s.rxq ++ [p]
        packets := t.packets
        trace := s.trace ++ [.callback s.rxCallback p P, .qAdd .rxq p true], result := .none } ∧
      OwnerPasses s.packets t.packets p .rxq

/-- R190: with the inbound queue full the callback has run and the packet goes back to the store. -/
def Obligations.RxGoodFrameWithFullQueueIsReturned : Prop :=
  ∀ (s : State) (p : Handle) (n : Nat) (b : Byte) (P : List Byte), s.ready = true → s.rxState = .receivingBody →
    s.rxPkt = some p → s.rxOff = some n → s.packets.lenOf p = some n → s.rxCsum = some b →
    s.packets.ownerOf p = .rx → s.packets.payload p = some P → s.rxqCap ≤ s.rxq.length →
    ∃ t, exec (.rxBodyGoodQfull b) s = .next t ∧
      t = { s with
        rxState := .idle, rxPkt := none, rxOff := none, rxCsum := none, rxSize := none, packets := t.packets
        trace := s.trace ++
          [.callback s.rxCallback p P, .qAdd .rxq p false, .outcome .qfull, .storeRet p]
        result := .none } ∧
      GoesToStore s.packets t.packets p

/-- R191, R262: a Checksum that differs returns the packet; no callback, no queue. -/
def Obligations.RxBadChecksumReturnsThePacket : Prop :=
  ∀ (s : State) (p : Handle) (n : Nat) (b c : Byte), s.ready = true → s.rxState = .receivingBody →
    s.rxPkt = some p → s.rxOff = some n → s.packets.lenOf p = some n → s.rxCsum = some c → b ≠ c →
    s.packets.ownerOf p = .rx →
    ∃ t, exec (.rxBodyBad b) s = .next t ∧
      t = { s with
        rxState := .idle, rxPkt := none, rxOff := none, rxCsum := none, rxSize := none, packets := t.packets
        trace := s.trace ++ [.outcome (.checksum b c), .storeRet p], result := .none } ∧
      GoesToStore s.packets t.packets p

/-- R197 (derived by the spec): the only transitions of RX. A row of RX.BYTE makes one of those listed; every other
operation of an initialised block but the two that run RX.BYTE leaves `rx_state`, `rx_pkt`, `rx_off` and `rx_size` as
they are. -/
def Obligations.RxTransitionsAreTheListedOnes : Prop :=
  (∀ (i : Instr) (s t : State), isRxByteRow i = true → exec i s = .next t →
    (s.rxState = .idle → t.rxState = .idle ∨ t.rxState = .awaitSizecheck) ∧
    (s.rxState = .receivingBody →
      (t.rxState = .receivingBody ∧ ∃ o, s.rxOff = some o ∧ t.rxOff = some (o + 1)) ∨
      (t.rxState = .idle ∧ RxAtLength s ∧ t.rxPkt = none)) ∧
    (t.rxState = .receivingBody → s.rxState = .awaitSizecheck ∨ s.rxState = .receivingBody)) ∧
  ∀ (i : Instr) (s t : State), isRxByteRow i = false → i ≠ .rxDrain → i ≠ .envRxrdy → s.initialised = true →
    exec i s = .next t →
    t.rxState = s.rxState ∧ t.rxPkt = s.rxPkt ∧ t.rxOff = s.rxOff ∧ t.rxSize = s.rxSize

/-- R181 (derived by the spec): from every state that meets the invariants, RX.BYTE of every byte selects one of its
nine rows and completes. -/
def Obligations.NoByteStopsTheReceiver : Prop :=
  ∀ (s : State) (b : Byte), Inv s →
    ∃ i t, decode s ⟨.rxByte, [b]⟩ = .ok i ∧ isRxByteRow i = true ∧ exec i s = .next t ∧
      t.chanRxbuf = s.chanRxbuf ∧ t.chanOvr = s.chanOvr

/-- R192, R193 (the spec's own decisions D18 and D9): RX.DRAIN of a waiting byte reads it, applies to it the row
RX.BYTE selects, and goes on as RX.DRAIN of the rest (of none, it is the overrun step, which
OverrunClearTouchesOnlyTheFlag states). Where the invariants hold it completes: it consumes every byte that waits,
in order, then clears the overrun flag; it serves the event, and touches no register of TX and neither enable. -/
def Obligations.DrainConsumesEveryByteAndClearsOverrun : Prop :=
  (∀ (s : State) (b : Byte) (rest : List Byte) (i : Instr), s.ready = true → s.irqRxEn = true → s.chanRxbuf = b :: rest →
    decode (s.takeByte b rest) ⟨.rxByte, [b]⟩ = .ok i →
    exec .rxDrain s =
      andThen (exec i { s.takeByte b rest with rxrdyPending := false, result := .none }) fun t =>
        exec .rxDrain t) ∧
  ∀ s : State, Inv s → s.irqRxEn = true →
    ∃ t, exec .rxDrain s = .next t ∧ t.chanRxbuf = [] ∧ t.chanOvr = false ∧ t.rxrdyPending = false ∧
      t.wireIn = s.wireIn ++ s.chanRxbuf ∧ t.wireOut = s.wireOut ∧
      t.txState = s.txState ∧ t.txPkt = s.txPkt ∧ t.txOff = s.txOff ∧ t.txCsum = s.txCsum ∧ t.txq = s.txq ∧
      t.txrdyPending = s.txrdyPending ∧ t.irqTxEn = s.irqTxEn ∧ t.irqRxEn = s.irqRxEn

/-- R192, R193 (the spec's own decisions D9 and D18): RX.OVR.CLEAR clears the overrun flag and changes no register of
RX; RX.DRAIN with no byte waiting does only that step, and only when the flag is set. -/
def Obligations.OverrunClearTouchesOnlyTheFlag : Prop :=
  ∀ s : State, s.ready = true →
    (s.chanOvr = true →
      exec .rxOvrClear s = .next { s with chanOvr := false, trace := s.trace ++ [.ovrClear], result := .none }) ∧
    (s.irqRxEn = true → s.chanRxbuf = [] →
      exec .rxDrain s = .next
        (if s.chanOvr = true then
          { s with chanOvr := false, rxrdyPending := false, trace := s.trace ++ [.ovrClear], result := .none }
        else { s with rxrdyPending := false, result := .none }))

/-- R192 (the spec's own decision D18): the bytes that wait may be drained in one run or in two; the result is the
same. -/
def Obligations.DrainGroupingDoesNotMatter : Prop :=
  ∀ (s t : State) (xs ys : List Byte), s.ready = true → s.irqRxEn = true → s.chanOvr = false →
    exec .rxDrain { s with chanRxbuf := xs } = .next t →
    exec .rxDrain { s with chanRxbuf := xs ++ ys } = exec .rxDrain { t with chanRxbuf := ys }

/-- R196 (derived by the spec): fed `frame(P)` from RX_IDLE, with a store that answers a handle and room in the queue,
the receiver asks once for `N - HEADER_LENGTH`, stores exactly `P`, runs the callback exactly once, queues the packet
and is idle. -/
def Obligations.ReceiverDeliversExactlyTheFramesPayload : Prop :=
  ∀ (s : State) (P : List Byte) (p : Handle) (rest : List Move), s.ready = true → s.rxState = .idle → s.rxPkt = none →
    s.params.headerLength ≤ P.length → P.length + 4 ≤ s.params.maxFrameSize →
    s.storeAnswer (P.length - s.params.headerLength) = some p → s.rxq.length < s.rxqCap →
    ∃ t, core.run (P.length + 3) { s with program := rxFeed (frame P) ++ rest } = .next t ∧
      t = { s with
        rxOff := none, rxCsum := none, rxSize := none, rxq := s.rxq ++ [p], packets := t.packets
        trace := s.trace ++ [.storeReq (P.length - s.params.headerLength) (some p), .callback s.rxCallback p P,
          .qAdd .rxq p true]
        result := .none, storeInput := s.storeInput.tail, freeCtr := t.freeCtr, program := rest } ∧
      t.packets.payload p = some P ∧ t.packets.ownerOf p = .rxq ∧
      ∀ q, q ≠ p → lookup q.id t.packets = lookup q.id s.packets

/-- R196 with R160 (derived by the spec): the bytes one block emits for a packet, fed to a block with the same
parameters, deliver the same payload to its callback exactly once. -/
def Obligations.RoundTripDeliversTheSamePayload : Prop :=
  ∀ (s r : State) (p q : Handle) (P : List Byte), s.ready = true → s.irqTxEn = true → s.txState = .idle →
    s.txPkt = none → MaySubmit s p → s.packets.payload p = some P → r.ready = true → r.params = s.params →
    r.rxState = .idle → r.rxPkt = none → s.params.headerLength ≤ P.length → P.length + 4 ≤ s.params.maxFrameSize →
    r.storeAnswer (P.length - r.params.headerLength) = some q → r.rxq.length < r.rxqCap →
    ∃ t bytes u, core.run (P.length + 3) { s with program := txFrame p P.length } = .next t ∧
      t.wireOut = s.wireOut ++ bytes ∧ core.run bytes.length { r with program := rxFeed bytes } = .next u ∧
      u.packets.payload q = some P ∧ u.rxq = r.rxq ++ [q] ∧
      u.trace = r.trace ++ [.storeReq (P.length - r.params.headerLength) (some q), .callback r.rxCallback q P,
        .qAdd .rxq q true]

/-! ### Critical section and foreground -/

/-- R221, R222 (the spec's own decision D14): ENTER clears both enables and LEAVE sets both; nothing else changes. -/
def Obligations.CriticalSectionSetsBothEnables : Prop :=
  ∀ s : State, s.ready = true →
    exec .sysCritEnter s = .next { s with irqTxEn := false, irqRxEn := false, result := .none } ∧
    exec .sysCritLeave s = .next { s with irqTxEn := true, irqRxEn := true, result := .none }

/-- R86, R37 (the spec's own decision D14): while an enable is 0 its handler does not run. -/
def Obligations.NoHandlerRunsWhileDisabled : Prop :=
  ∀ (s : State) (i : Instr), s.ready = true →
    (s.irqTxEn = false → decode s ⟨.txAdv, []⟩ = .ok i → exec i s = .refused .handlerHeld) ∧
    (s.irqRxEn = false → exec .rxDrain s = .refused .handlerHeld)

/-- R223 (the spec's own decision D25): a packet of the foreground joins the tail of the outbound queue, or is
refused with `false` and stays the foreground's when the queue is full. Anyone else's packet faults (R90, R268, the
spec's own decision D19; where it faults is the model's, log 11). -/
def Obligations.SendQueuesOrDeclines : Prop :=
  ∀ (s : State) (p : Handle), s.ready = true →
    (s.packets.ownerOf p = .fg → s.txq.length < s.txqCap →
      ∃ t, exec (.fgSend p) s = .next t ∧
        t = { s with
          txq := s.txq ++ [p], irqTxEn := true, irqRxEn := true, packets := t.packets
          trace := s.trace ++ [.qAdd .txq p true], result := .bit true } ∧
        OwnerPasses s.packets t.packets p .txq) ∧
    (s.packets.ownerOf p = .fg → s.txqCap ≤ s.txq.length →
      exec (.fgSend p) s = .next
        { s with
          irqTxEn := true, irqRxEn := true, trace := s.trace ++ [.qAdd .txq p false], result := .bit false }) ∧
    (s.packets.ownerOf p ≠ .fg → exec (.fgSend p) s = .fault .notOwner)

/-- R224 (the spec's own decision D11): FG.PROCESS does nothing while TX is busy or the queue is empty; it submits the
head of the queue to an idle TX; a packet too long goes back to the store. -/
def Obligations.ProcessSubmitsAtMostOnePacket : Prop :=
  ∀ s : State, s.ready = true →
    (s.txState ≠ .idle ∨ s.txq = [] →
      exec .fgProcess s = .next { s with irqTxEn := true, irqRxEn := true, result := .none }) ∧
    (∀ (p : Handle) (l : List Handle) (n : Nat), s.txState = .idle → s.txq = p :: l → p ∉ l →
      s.packets.ownerOf p = .txq → s.packets.lenOf p = some n →
      (n < s.params.maxFrameSize → s.txPkt = none →
        ∃ t, exec .fgProcess s = .next t ∧
          t = { s with
            txState := .sendingSize, txPkt := some p, txCsum := some (BitVec.ofNat 8 (n + 3)), txq := l
            irqTxEn := true, irqRxEn := true, packets := t.packets
            trace := s.trace ++ [.qRem .txq (some p), .wireOut (BitVec.ofNat 8 (n + 3))], result := .none } ∧
          OwnerPasses s.packets t.packets p .tx) ∧
      (s.params.maxFrameSize ≤ n →
        ∃ t, exec .fgProcess s = .next t ∧
          t = { s with
            txq := l, irqTxEn := true, irqRxEn := true, packets := t.packets
            trace := s.trace ++ [.qRem .txq (some p), .outcome .submitOversize, .storeRet p], result := .none } ∧
          GoesToStore s.packets t.packets p))

/-- R225 (the spec's own decision D25): FG.RECV takes the oldest received packet, which becomes the foreground's; an
empty queue answers EMPTY. -/
def Obligations.RecvTakesTheOldestPacket : Prop :=
  ∀ s : State, s.ready = true →
    (s.rxq = [] →
      exec .fgRecv s = .next
        { s with
          irqTxEn := true, irqRxEn := true, trace := s.trace ++ [.qRem .rxq none], result := .handle none }) ∧
    (∀ (p : Handle) (l : List Handle), s.rxq = p :: l → s.packets.ownerOf p = .rxq →
      ∃ t, exec .fgRecv s = .next t ∧
        t = { s with
          rxq := l, irqTxEn := true, irqRxEn := true, packets := t.packets
          trace := s.trace ++ [.qRem .rxq (some p)], result := .handle (some p) } ∧
        OwnerPasses s.packets t.packets p .fg)

/-- R226 (the spec's own decision D25): FG.QUERY answers one of the three queries of a queue and changes nothing but
the enables its section sets. -/
def Obligations.QueryAnswersAndChangesNothing : Prop :=
  ∀ (s : State) (q : QName) (f : QueryFn), s.ready = true →
    exec (.fgQuery q f) s = .next
      { s with
        irqTxEn := true, irqRxEn := true
        result :=
          (match f with
          | .isEmpty => .bit (decide (s.queue q = []))
          | .isFull => .bit (decide ((s.queue q).length = s.queueCap q))
          | .size => .nat (s.queue q).length) }

/-- R62, R227 (derived by the spec): the foreground writes one cell of a packet it owns, and reads it back; every
other cell is unchanged, and an offset beyond the packet faults. Another's packet faults (R90, R268, the spec's own
decision D19, log 11). That the write and the read are moves of their own is the model's (log 20). -/
def Obligations.ForegroundAccessesItsOwnCellsOnly : Prop :=
  ∀ (s : State) (p : Handle) (i n : Nat) (v : Byte), s.ready = true →
    (s.packets.ownerOf p = .fg → s.packets.lenOf p = some n → i < n →
      ∃ t, perform (.write p i v) s = .next t ∧ t = { s with packets := t.packets, result := .none } ∧
        CellWritten s.packets t.packets p i v ∧
        perform (.read p i) t = .next { t with result := .byte v }) ∧
    (s.packets.ownerOf p = .fg → s.packets.lenOf p = some n → n ≤ i →
      perform (.write p i v) s = .fault .outOfRange ∧ perform (.read p i) s = .fault .outOfRange) ∧
    (s.packets.ownerOf p ≠ .fg →
      perform (.write p i v) s = .fault .notOwner ∧ perform (.read p i) s = .fault .notOwner)

/-! ### The collaborators -/

/-- R64 (the spec's own decisions D4 and D19; the form of the oracle is the model's, log 5): on success the packet
passes from STORE to the caller with length `d + HEADER_LENGTH` and every cell unwritten; on FAIL no packet changes.
That the context operand gives the owner, and that TX is refused, is the model's reading of R89 and R115 (log 26). -/
def Obligations.RequestPacketAnswersAFreshPacketOrFail : Prop :=
  ∀ (s : State) (d : Nat), s.ready = true →
    (∀ (c : Ctx) (o : Owner) (p : Handle), (c = .fg ∧ o = .fg) ∨ (c = .rxi ∧ o = .rx) → s.storeAnswer d = some p →
      ∃ t, exec (.storeRequest c d) s = .next t ∧
        t = { s with
          packets := t.packets, trace := s.trace ++ [.storeReq d (some p)], result := .handle (some p)
          storeInput := s.storeInput.tail, freeCtr := t.freeCtr } ∧
        s.packets.ownerOf p = .store ∧ LeavesStore s.packets t.packets p o (d + s.params.headerLength)) ∧
    (∀ c : Ctx, c ≠ .txi → s.storeAnswer d = none →
      ∃ t, exec (.storeRequest c d) s = .next t ∧
        t = { s with
          trace := s.trace ++ [.storeReq d none], result := .handle none
          storeInput := s.storeInput.tail, freeCtr := t.freeCtr }) ∧
    exec (.storeRequest .txi d) s = .refused .notACaller

/-- R65: returnPacket gives the caller's packet back; of a packet the caller does not own it faults. -/
def Obligations.ReturnPacketNeedsTheOwner : Prop :=
  ∀ (s : State) (c : Ctx) (o : Owner) (p : Handle), s.ready = true →
    (c = .fg ∧ o = .fg) ∨ (c = .rxi ∧ o = .rx) ∨ (c = .txi ∧ o = .tx) →
    (s.packets.ownerOf p = o →
      ∃ t, exec (.storeReturn c p) s = .next t ∧
        t = { s with packets := t.packets, trace := s.trace ++ [.storeRet p], result := .none } ∧
        GoesToStore s.packets t.packets p) ∧
    (s.packets.ownerOf p ≠ o → exec (.storeReturn c p) s = .fault .returnByNonOwner)

/-- R67: tryAddTail appends while the queue is below its capacity and answers true, else changes nothing and answers
false. -/
def Obligations.AddTailNeverExceedsTheCapacity : Prop :=
  ∀ (s : State) (p : Handle), s.ready = true →
    exec (.qAddtail .txq p) s = .next
      (if s.txq.length < s.txqCap then
        { s with txq := s.txq ++ [p], trace := s.trace ++ [.qAdd .txq p true], result := .bit true }
      else { s with trace := s.trace ++ [.qAdd .txq p false], result := .bit false }) ∧
    exec (.qAddtail .rxq p) s = .next
      (if s.rxq.length < s.rxqCap then
        { s with rxq := s.rxq ++ [p], trace := s.trace ++ [.qAdd .rxq p true], result := .bit true }
      else { s with trace := s.trace ++ [.qAdd .rxq p false], result := .bit false })

/-- R68 to R72 (R69 is the spec's own decision D10; that removeTail emits nothing is the model's, log 22): removeHead
takes the first handle and removeTail the last; an empty queue answers EMPTY and is unchanged; isEmpty, isFull and
size answer and change nothing. -/
def Obligations.QueuePrimitivesTakeTheEndsAndAnswer : Prop :=
  ∀ s : State, s.ready = true →
    (∀ (h : Handle) (l : List Handle),
      (s.txq = h :: l → exec (.qRemhead .txq) s =
        .next { s with txq := l, trace := s.trace ++ [.qRem .txq (some h)], result := .handle (some h) }) ∧
      (s.rxq = h :: l → exec (.qRemhead .rxq) s =
        .next { s with rxq := l, trace := s.trace ++ [.qRem .rxq (some h)], result := .handle (some h) }) ∧
      (s.txq = l ++ [h] → exec (.qRemtail .txq) s = .next { s with txq := l, result := .handle (some h) }) ∧
      (s.rxq = l ++ [h] → exec (.qRemtail .rxq) s = .next { s with rxq := l, result := .handle (some h) })) ∧
    ∀ q : QName,
      (s.queue q = [] →
        exec (.qRemhead q) s = .next { s with trace := s.trace ++ [.qRem q none], result := .handle none } ∧
        exec (.qRemtail q) s = .next { s with result := .handle none }) ∧
      exec (.qIsempty q) s = .next { s with result := .bit (decide (s.queue q = [])) } ∧
      exec (.qIsfull q) s = .next { s with result := .bit (decide ((s.queue q).length = s.queueCap q)) } ∧
      exec (.qSize q) s = .next { s with result := .nat (s.queue q).length }

/-- R73, R74, R75, R76, R77 (R73 and R75 are the spec's own decision D15): the five capabilities of the byte
channel. That CH.IRQEN names one source and one bit is the model's reading of R77 (log 21); in a run both enables
move together (R271). -/
def Obligations.ChannelPrimitivesDoTheirOneThing : Prop :=
  ∀ (s : State) (b : Byte), s.ready = true →
    (exec (.chWrite b) s = .next { s with trace := s.trace ++ [.wireOut b], result := .none }) ∧
    (exec .chAvail s = .next { s with result := .bit (decide (s.chanRxbuf ≠ [])) }) ∧
    (∀ l, s.chanRxbuf = b :: l →
      exec .chRead s = .next { s with chanRxbuf := l, trace := s.trace ++ [.wireIn b], result := .byte b }) ∧
    (s.chanRxbuf = [] → exec .chRead s = .fault .emptyRead) ∧
    exec .chOvrclr s = .next { s with chanOvr := false, trace := s.trace ++ [.ovrClear], result := .none } ∧
    ∀ on, exec (.chIrqen .txrdy on) s = .next { s with irqTxEn := on, result := .none } ∧
      exec (.chIrqen .rxrdy on) s = .next { s with irqRxEn := on, result := .none }

/-! ### The environment -/

/-- R229, R230 (the spec's own decision D15): a byte that arrives joins the buffer and raises the event; a byte that
is lost only sets the overrun flag. -/
def Obligations.BytesArriveOrAreLost : Prop :=
  ∀ (s : State) (b : Byte), s.ready = true →
    exec (.envRxbyte b) s =
      .next { s with chanRxbuf := s.chanRxbuf ++ [b], rxrdyPending := true, result := .none } ∧
    exec .envRxlose s = .next { s with chanOvr := true, result := .none }

/-- R231, R271 (the spec's own decisions D14 and D15; serving at once is the model's, log 14): a transmit-ready event
raised while `irq_tx_en = 0` is held; else one run of TX.ADV serves it, and completes where the invariants hold and
the cell to send is written. -/
def Obligations.TransmitReadyIsServedOrHeld : Prop :=
  (∀ s : State, s.ready = true → s.irqTxEn = false →
    exec .envTxrdy s = .next { s with txrdyPending := true, result := .none }) ∧
  (∀ (s : State) (i : Instr), s.ready = true → s.irqTxEn = true → decode s ⟨.txAdv, []⟩ = .ok i →
    exec .envTxrdy s = exec i { s with txrdyPending := true }) ∧
  ∀ s : State, Inv s → s.irqTxEn = true →
    (∀ p o n, s.txState = .sendingBody → s.txPkt = some p → s.txOff = some o → s.packets.lenOf p = some n → o < n →
      s.packets.cell p o ≠ none) →
    ∃ t, exec .envTxrdy s = .next t ∧ t.txrdyPending = false

/-- R232, R271 (the spec's own decisions D14 and D15; serving at once is the model's, log 14): a receive-ready event
raised while `irq_rx_en = 0` is held; else one run of RX.DRAIN serves it, and completes where the invariants hold. -/
def Obligations.ReceiveReadyIsServedOrHeld : Prop :=
  (∀ s : State, s.ready = true → s.irqRxEn = false →
    exec .envRxrdy s = .next { s with rxrdyPending := true, result := .none }) ∧
  (∀ s : State, s.ready = true → s.irqRxEn = true →
    exec .envRxrdy s = exec .rxDrain { s with rxrdyPending := true }) ∧
  ∀ s : State, Inv s → s.irqRxEn = true →
    ∃ t, exec .envRxrdy s = .next t ∧ t.rxrdyPending = false ∧ t.chanRxbuf = []

/-! ### Independence, order -/

/-- R33 (derived by the spec): no row of TX writes or reads a register of RX, and no row of RX.BYTE one of TX: two
states that differ only in the other machine's registers go on to states that differ only there. -/
def Obligations.TheTwoMachinesAreIndependent : Prop :=
  (∀ (i : Instr) (s s' t : State), isTxRow i = true → exec i s = .next t →
    s' = { s with rxState := s'.rxState, rxPkt := s'.rxPkt, rxOff := s'.rxOff, rxCsum := s'.rxCsum, rxSize := s'.rxSize } →
    (t.rxState = s.rxState ∧ t.rxPkt = s.rxPkt ∧ t.rxOff = s.rxOff ∧ t.rxCsum = s.rxCsum ∧ t.rxSize = s.rxSize) ∧
    exec i s' = .next
      { t with rxState := s'.rxState, rxPkt := s'.rxPkt, rxOff := s'.rxOff, rxCsum := s'.rxCsum, rxSize := s'.rxSize }) ∧
  ∀ (i : Instr) (s s' t : State), isRxByteRow i = true → exec i s = .next t →
    s' = { s with txState := s'.txState, txPkt := s'.txPkt, txOff := s'.txOff, txCsum := s'.txCsum } →
    (t.txState = s.txState ∧ t.txPkt = s.txPkt ∧ t.txOff = s.txOff ∧ t.txCsum = s.txCsum) ∧
    exec i s' = .next
      { t with txState := s'.txState, txPkt := s'.txPkt, txOff := s'.txOff, txCsum := s'.txCsum }

/-- R272 (the spec's own decision D14): with both events to serve, either handler may run first; where the run of
TX.ADV returns no packet, both orders end in the same state but for the order of the trace, which holds the same
events, and in the same two byte streams. -/
def Obligations.HandlerOrderDoesNotMatter : Prop :=
  ∀ (s a : State) (i : Instr), Inv s → s.irqTxEn = true → s.irqRxEn = true → decode s ⟨.txAdv, []⟩ = .ok i →
    i ≠ .txAdvTrailer → exec i s = .next a →
    ∃ ab b ba, exec .rxDrain a = .next ab ∧ exec .rxDrain s = .next b ∧ decode b ⟨.txAdv, []⟩ = .ok i ∧
      exec i b = .next ba ∧
      ba = { ab with trace := ba.trace } ∧ ba.trace.Perm ab.trace ∧ ba.wireOut = ab.wireOut ∧ ba.wireIn = ab.wireIn

/-! ### Decoding and stepping -/

/-- R116, R115 (the spec's own decision D21): the decoder gives exactly the row of the agent's call whose guard
holds, with every operand; encoding it gives the call back. The guards are those of TX.SUBMIT, TX.ADV, RX.BYTE,
RX.OVR.CLEAR, SYS.INIT and the callers of STORE.REQUEST; the other rows have none and go by their name. Four
points are the model's: a handle without a length selects TX.SUBMIT.ACCEPT (log 10), an accumulator with no value is
a free byte (log 6), an absent `rx_size` makes no pair and selects RX.AWAIT.RESYNC (log 33), and in a body state an
absent packet, offset or length selects TX.ADV.BODY or RX.BODY.STORE (log 34). -/
def Obligations.DecodeAndEncodeAgree : Prop :=
  ∀ (s : State) (c : Call) (i : Instr), decode s c = .ok i ↔ (encode i = c ∧ RowSelected s i)

/-- R115 (derived by the spec): within TX.SUBMIT, within TX.ADV and within RX.BYTE exactly one row is selected in any
state; in the states the tables of R25 and R31 do not have, by the model's choices (log 6, log 10, log 33,
log 34). -/
def Obligations.ExactlyOneRowIsSelected : Prop :=
  ∀ s : State,
    (∀ p, ∃ i, (encode i = ⟨.txSubmit p, []⟩ ∧ RowSelected s i) ∧
      ∀ j, encode j = ⟨.txSubmit p, []⟩ → RowSelected s j → j = i) ∧
    (∃ i, (encode i = ⟨.txAdv, []⟩ ∧ RowSelected s i) ∧ ∀ j, encode j = ⟨.txAdv, []⟩ → RowSelected s j → j = i) ∧
    ∀ b, ∃ i, (encode i = ⟨.rxByte, [b]⟩ ∧ RowSelected s i) ∧
      ∀ j, encode j = ⟨.rxByte, [b]⟩ → RowSelected s j → j = i

/-- R115 (derived by the spec; refusing it is the model's, log 15): a row of the three families whose guard does not
hold is not run; nor is RX.OVR.CLEAR with no overrun. In the states the tables of R25 and R31 do not have, the guards
are the model's (log 6, log 10, log 33, log 34). -/
def Obligations.UnselectedRowsDoNotRun : Prop :=
  (∀ (s : State) (i : Instr), s.ready = true → (isTxRow i = true ∨ isRxByteRow i = true) → ¬ RowSelected s i →
    exec i s = .refused .notSelected) ∧
  ∀ s : State, s.ready = true → s.chanOvr = false → exec .rxOvrClear s = .refused .notSelected

/-- R101 to R107: reading a frame off a byte sequence undoes writing it, and a byte sequence is read as a frame only if it
begins with exactly that frame. -/
def Obligations.FrameFormatRoundTrips : Prop :=
  (∀ P rest : List Byte, P.length ≤ 252 → parseFrame (frame P ++ rest) = .ok (P, rest)) ∧
  ∀ bytes P rest : List Byte, parseFrame bytes = .ok (P, rest) → bytes = frame P ++ rest ∧ P.length ≤ 252

/-- A few calls, written out from the map R115 and the vectors, decode to the rows they stand for. -/
def Obligations.SampleCallsDecodeToTheirRows : Prop :=
  decode State.reset ⟨.rxByte, [0b00000101#8]⟩ = .ok (.rxIdleAccept 0x05#8) ∧
  decode State.reset ⟨.rxByte, [0b11001000#8]⟩ = .ok (.rxIdleDiscard 0xC8#8) ∧
  decode State.reset ⟨.txAdv, []⟩ = .ok .txAdvIdle ∧
  decode State.reset ⟨.txSubmit none, []⟩ = .ok (.txSubmitReject none) ∧
  decode State.reset ⟨.envRxbyte, [0b11111010#8]⟩ = .ok (.envRxbyte 0xFA#8) ∧
  decode State.reset ⟨.csumAcc .rx, []⟩ = .error .missingByte ∧
  decode State.reset ⟨.rxDrain, [0x00#8]⟩ = .error .extraBytes

/-- R233, R116 (the spec's own decision D21): a step takes the next move, and a call that decodes is run as the operation
it decodes to, in the state it finds; the foreground's own accesses are made. The model's choices are the program
itself (log 4), that a call that does not decode is refused as undecodable (log 15), and that the foreground's write
and read of a cell are moves of their own (log 20). -/
def Obligations.StepRunsTheDecodedOperation : Prop :=
  ∀ (s : State) (rest : List Move),
    (∀ c i, s.program = .call c :: rest → decode s c = .ok i → step s = exec i { s with program := rest }) ∧
    (∀ c r, s.program = .call c :: rest → decode s c = .error r → step s = .refused (.undecodable r)) ∧
    (∀ p off v, s.program = .write p off v :: rest → step s = fgWrite p off v { s with program := rest }) ∧
    ∀ p off, s.program = .read p off :: rest → step s = fgRead p off { s with program := rest }

/-- R282, R271 (the spec's own decision D14; serving them here is the model's, log 4): with no move left and no event
to serve the machine stays as it is; with one event to serve, a step runs its handler. -/
def Obligations.IdleMachineServesHeldEvents : Prop :=
  ∀ s : State, s.program = [] →
    (s.serviceable .txrdy = false → s.serviceable .rxrdy = false → step s = .next s) ∧
    (∀ i, s.serviceable .txrdy = true → s.serviceable .rxrdy = false → decode s ⟨.txAdv, []⟩ = .ok i →
      step s = exec i s) ∧
    (s.serviceable .txrdy = false → s.serviceable .rxrdy = true → step s = exec .rxDrain s)

/-! ### Invariants -/

/-- R48 (derived by the spec): the invariants hold at the reset state. -/
def Obligations.InvariantsHoldAtReset : Prop := Inv State.reset

/-- R48 (derived by the spec): SYS.INIT, on a block whose packets are all the foreground's, establishes the invariants. -/
def Obligations.InitEstablishesTheInvariants : Prop :=
  ∀ (s t : State) (n m : Nat) (cb : Callback), s.packets.wf = true →
    (∀ p, s.packets.ownerOf p = .store ∨ s.packets.ownerOf p = .fg) → (∀ m ∈ s.program, isRunMove m = true) →
    exec (.sysInit n m cb) s = .next t → Inv t

/-- R48 (derived by the spec): every step keeps the invariants. -/
def Obligations.EveryStepKeepsTheInvariants : Prop :=
  ∀ s t : State, Inv s → step s = .next t → Inv t

/-- The model's own form of the memory (log 9, DESIGN CHOICE): handles strictly rising, none of them the store's,
cells strictly rising and below the length. Every step, of any program, keeps it. -/
def Obligations.EveryStepKeepsTheMemoryCanonical : Prop :=
  ∀ s t : State, s.packets.wf = true → step s = .next t → t.packets.wf = true

/-- R40, R72: no step of any program takes a queue above its capacity. -/
def Obligations.NoQueueExceedsItsCapacity : Prop :=
  ∀ s t : State, s.txq.length ≤ s.txqCap → s.rxq.length ≤ s.rxqCap → step s = .next t →
    t.txq.length ≤ t.txqCap ∧ t.rxq.length ≤ t.rxqCap
end

