-- ==== Sys2Proof/Laws/State.lean ====
section
/-! SUPPORT. One lemma per field and named update of the state, so that no later proof unfolds a record update. -/

namespace Sys2Proof.Machine

/-! ### emit -/

@[simp] theorem State.emit_params (s : State) (e : Event) : (s.emit e).params = s.params := rfl
@[simp] theorem State.emit_initialised (s : State) (e : Event) : (s.emit e).initialised = s.initialised := rfl
@[simp] theorem State.emit_txState (s : State) (e : Event) : (s.emit e).txState = s.txState := rfl
@[simp] theorem State.emit_txPkt (s : State) (e : Event) : (s.emit e).txPkt = s.txPkt := rfl
@[simp] theorem State.emit_txOff (s : State) (e : Event) : (s.emit e).txOff = s.txOff := rfl
@[simp] theorem State.emit_txCsum (s : State) (e : Event) : (s.emit e).txCsum = s.txCsum := rfl
@[simp] theorem State.emit_rxState (s : State) (e : Event) : (s.emit e).rxState = s.rxState := rfl
@[simp] theorem State.emit_rxPkt (s : State) (e : Event) : (s.emit e).rxPkt = s.rxPkt := rfl
@[simp] theorem State.emit_rxOff (s : State) (e : Event) : (s.emit e).rxOff = s.rxOff := rfl
@[simp] theorem State.emit_rxCsum (s : State) (e : Event) : (s.emit e).rxCsum = s.rxCsum := rfl
@[simp] theorem State.emit_rxSize (s : State) (e : Event) : (s.emit e).rxSize = s.rxSize := rfl
@[simp] theorem State.emit_chanOvr (s : State) (e : Event) : (s.emit e).chanOvr = s.chanOvr := rfl
@[simp] theorem State.emit_chanRxbuf (s : State) (e : Event) : (s.emit e).chanRxbuf = s.chanRxbuf := rfl
@[simp] theorem State.emit_txrdyPending (s : State) (e : Event) : (s.emit e).txrdyPending = s.txrdyPending := rfl
@[simp] theorem State.emit_rxrdyPending (s : State) (e : Event) : (s.emit e).rxrdyPending = s.rxrdyPending := rfl
@[simp] theorem State.emit_irqTxEn (s : State) (e : Event) : (s.emit e).irqTxEn = s.irqTxEn := rfl
@[simp] theorem State.emit_irqRxEn (s : State) (e : Event) : (s.emit e).irqRxEn = s.irqRxEn := rfl
@[simp] theorem State.emit_rxCallback (s : State) (e : Event) : (s.emit e).rxCallback = s.rxCallback := rfl
@[simp] theorem State.emit_txqCap (s : State) (e : Event) : (s.emit e).txqCap = s.txqCap := rfl
@[simp] theorem State.emit_txq (s : State) (e : Event) : (s.emit e).txq = s.txq := rfl
@[simp] theorem State.emit_rxqCap (s : State) (e : Event) : (s.emit e).rxqCap = s.rxqCap := rfl
@[simp] theorem State.emit_rxq (s : State) (e : Event) : (s.emit e).rxq = s.rxq := rfl
@[simp] theorem State.emit_packets (s : State) (e : Event) : (s.emit e).packets = s.packets := rfl
@[simp] theorem State.emit_result (s : State) (e : Event) : (s.emit e).result = s.result := rfl
@[simp] theorem State.emit_storeInput (s : State) (e : Event) : (s.emit e).storeInput = s.storeInput := rfl
@[simp] theorem State.emit_freeCtr (s : State) (e : Event) : (s.emit e).freeCtr = s.freeCtr := rfl
@[simp] theorem State.emit_program (s : State) (e : Event) : (s.emit e).program = s.program := rfl
@[simp] theorem State.emit_trace (s : State) (e : Event) : (s.emit e).trace = s.trace ++ [e] := rfl

/-! ### answer -/

@[simp] theorem State.answer_params (s : State) (r : Result) : (s.answer r).params = s.params := rfl
@[simp] theorem State.answer_initialised (s : State) (r : Result) : (s.answer r).initialised = s.initialised := rfl
@[simp] theorem State.answer_txState (s : State) (r : Result) : (s.answer r).txState = s.txState := rfl
@[simp] theorem State.answer_txPkt (s : State) (r : Result) : (s.answer r).txPkt = s.txPkt := rfl
@[simp] theorem State.answer_txOff (s : State) (r : Result) : (s.answer r).txOff = s.txOff := rfl
@[simp] theorem State.answer_txCsum (s : State) (r : Result) : (s.answer r).txCsum = s.txCsum := rfl
@[simp] theorem State.answer_rxState (s : State) (r : Result) : (s.answer r).rxState = s.rxState := rfl
@[simp] theorem State.answer_rxPkt (s : State) (r : Result) : (s.answer r).rxPkt = s.rxPkt := rfl
@[simp] theorem State.answer_rxOff (s : State) (r : Result) : (s.answer r).rxOff = s.rxOff := rfl
@[simp] theorem State.answer_rxCsum (s : State) (r : Result) : (s.answer r).rxCsum = s.rxCsum := rfl
@[simp] theorem State.answer_rxSize (s : State) (r : Result) : (s.answer r).rxSize = s.rxSize := rfl
@[simp] theorem State.answer_chanOvr (s : State) (r : Result) : (s.answer r).chanOvr = s.chanOvr := rfl
@[simp] theorem State.answer_chanRxbuf (s : State) (r : Result) : (s.answer r).chanRxbuf = s.chanRxbuf := rfl
@[simp] theorem State.answer_txrdyPending (s : State) (r : Result) : (s.answer r).txrdyPending = s.txrdyPending := rfl
@[simp] theorem State.answer_rxrdyPending (s : State) (r : Result) : (s.answer r).rxrdyPending = s.rxrdyPending := rfl
@[simp] theorem State.answer_irqTxEn (s : State) (r : Result) : (s.answer r).irqTxEn = s.irqTxEn := rfl
@[simp] theorem State.answer_irqRxEn (s : State) (r : Result) : (s.answer r).irqRxEn = s.irqRxEn := rfl
@[simp] theorem State.answer_rxCallback (s : State) (r : Result) : (s.answer r).rxCallback = s.rxCallback := rfl
@[simp] theorem State.answer_txqCap (s : State) (r : Result) : (s.answer r).txqCap = s.txqCap := rfl
@[simp] theorem State.answer_txq (s : State) (r : Result) : (s.answer r).txq = s.txq := rfl
@[simp] theorem State.answer_rxqCap (s : State) (r : Result) : (s.answer r).rxqCap = s.rxqCap := rfl
@[simp] theorem State.answer_rxq (s : State) (r : Result) : (s.answer r).rxq = s.rxq := rfl
@[simp] theorem State.answer_packets (s : State) (r : Result) : (s.answer r).packets = s.packets := rfl
@[simp] theorem State.answer_trace (s : State) (r : Result) : (s.answer r).trace = s.trace := rfl
@[simp] theorem State.answer_storeInput (s : State) (r : Result) : (s.answer r).storeInput = s.storeInput := rfl
@[simp] theorem State.answer_freeCtr (s : State) (r : Result) : (s.answer r).freeCtr = s.freeCtr := rfl
@[simp] theorem State.answer_program (s : State) (r : Result) : (s.answer r).program = s.program := rfl
@[simp] theorem State.answer_result (s : State) (r : Result) : (s.answer r).result = r := rfl

/-! ### setQueue -/

@[simp] theorem State.setQueue_params (s : State) (q : QName) (l : List Handle) : (s.setQueue q l).params = s.params := by cases q <;> rfl
@[simp] theorem State.setQueue_initialised (s : State) (q : QName) (l : List Handle) : (s.setQueue q l).initialised = s.initialised := by cases q <;> rfl
@[simp] theorem State.setQueue_txState (s : State) (q : QName) (l : List Handle) : (s.setQueue q l).txState = s.txState := by cases q <;> rfl
@[simp] theorem State.setQueue_txPkt (s : State) (q : QName) (l : List Handle) : (s.setQueue q l).txPkt = s.txPkt := by cases q <;> rfl
@[simp] theorem State.setQueue_txOff (s : State) (q : QName) (l : List Handle) : (s.setQueue q l).txOff = s.txOff := by cases q <;> rfl
@[simp] theorem State.setQueue_txCsum (s : State) (q : QName) (l : List Handle) : (s.setQueue q l).txCsum = s.txCsum := by cases q <;> rfl
@[simp] theorem State.setQueue_rxState (s : State) (q : QName) (l : List Handle) : (s.setQueue q l).rxState = s.rxState := by cases q <;> rfl
@[simp] theorem State.setQueue_rxPkt (s : State) (q : QName) (l : List Handle) : (s.setQueue q l).rxPkt = s.rxPkt := by cases q <;> rfl
@[simp] theorem State.setQueue_rxOff (s : State) (q : QName) (l : List Handle) : (s.setQueue q l).rxOff = s.rxOff := by cases q <;> rfl
@[simp] theorem State.setQueue_rxCsum (s : State) (q : QName) (l : List Handle) : (s.setQueue q l).rxCsum = s.rxCsum := by cases q <;> rfl
@[simp] theorem State.setQueue_rxSize (s : State) (q : QName) (l : List Handle) : (s.setQueue q l).rxSize = s.rxSize := by cases q <;> rfl
@[simp] theorem State.setQueue_chanOvr (s : State) (q : QName) (l : List Handle) : (s.setQueue q l).chanOvr = s.chanOvr := by cases q <;> rfl
@[simp] theorem State.setQueue_chanRxbuf (s : State) (q : QName) (l : List Handle) : (s.setQueue q l).chanRxbuf = s.chanRxbuf := by cases q <;> rfl
@[simp] theorem State.setQueue_txrdyPending (s : State) (q : QName) (l : List Handle) : (s.setQueue q l).txrdyPending = s.txrdyPending := by cases q <;> rfl
@[simp] theorem State.setQueue_rxrdyPending (s : State) (q : QName) (l : List Handle) : (s.setQueue q l).rxrdyPending = s.rxrdyPending := by cases q <;> rfl
@[simp] theorem State.setQueue_irqTxEn (s : State) (q : QName) (l : List Handle) : (s.setQueue q l).irqTxEn = s.irqTxEn := by cases q <;> rfl
@[simp] theorem State.setQueue_irqRxEn (s : State) (q : QName) (l : List Handle) : (s.setQueue q l).irqRxEn = s.irqRxEn := by cases q <;> rfl
@[simp] theorem State.setQueue_rxCallback (s : State) (q : QName) (l : List Handle) : (s.setQueue q l).rxCallback = s.rxCallback := by cases q <;> rfl
@[simp] theorem State.setQueue_txqCap (s : State) (q : QName) (l : List Handle) : (s.setQueue q l).txqCap = s.txqCap := by cases q <;> rfl
@[simp] theorem State.setQueue_rxqCap (s : State) (q : QName) (l : List Handle) : (s.setQueue q l).rxqCap = s.rxqCap := by cases q <;> rfl
@[simp] theorem State.setQueue_packets (s : State) (q : QName) (l : List Handle) : (s.setQueue q l).packets = s.packets := by cases q <;> rfl
@[simp] theorem State.setQueue_trace (s : State) (q : QName) (l : List Handle) : (s.setQueue q l).trace = s.trace := by cases q <;> rfl
@[simp] theorem State.setQueue_result (s : State) (q : QName) (l : List Handle) : (s.setQueue q l).result = s.result := by cases q <;> rfl
@[simp] theorem State.setQueue_storeInput (s : State) (q : QName) (l : List Handle) : (s.setQueue q l).storeInput = s.storeInput := by cases q <;> rfl
@[simp] theorem State.setQueue_freeCtr (s : State) (q : QName) (l : List Handle) : (s.setQueue q l).freeCtr = s.freeCtr := by cases q <;> rfl
@[simp] theorem State.setQueue_program (s : State) (q : QName) (l : List Handle) : (s.setQueue q l).program = s.program := by cases q <;> rfl
@[simp] theorem State.setQueue_queue (s : State) (q : QName) (l : List Handle) : (s.setQueue q l).queue q = l := by
  cases q <;> rfl
@[simp] theorem State.setQueue_queueCap (s : State) (q r : QName) (l : List Handle) :
    (s.setQueue q l).queueCap r = s.queueCap r := by
  cases q <;> cases r <;> rfl
theorem State.setQueue_queue_ne (s : State) (q r : QName) (l : List Handle) (h : r ≠ q) :
    (s.setQueue q l).queue r = s.queue r := by
  cases q <;> cases r <;> first | rfl | exact absurd rfl h

/-! ### setAcc -/

@[simp] theorem State.setAcc_params (s : State) (a : Acc) (v : Option Byte) : (s.setAcc a v).params = s.params := by cases a <;> rfl
@[simp] theorem State.setAcc_initialised (s : State) (a : Acc) (v : Option Byte) : (s.setAcc a v).initialised = s.initialised := by cases a <;> rfl
@[simp] theorem State.setAcc_txState (s : State) (a : Acc) (v : Option Byte) : (s.setAcc a v).txState = s.txState := by cases a <;> rfl
@[simp] theorem State.setAcc_txPkt (s : State) (a : Acc) (v : Option Byte) : (s.setAcc a v).txPkt = s.txPkt := by cases a <;> rfl
@[simp] theorem State.setAcc_txOff (s : State) (a : Acc) (v : Option Byte) : (s.setAcc a v).txOff = s.txOff := by cases a <;> rfl
@[simp] theorem State.setAcc_rxState (s : State) (a : Acc) (v : Option Byte) : (s.setAcc a v).rxState = s.rxState := by cases a <;> rfl
@[simp] theorem State.setAcc_rxPkt (s : State) (a : Acc) (v : Option Byte) : (s.setAcc a v).rxPkt = s.rxPkt := by cases a <;> rfl
@[simp] theorem State.setAcc_rxOff (s : State) (a : Acc) (v : Option Byte) : (s.setAcc a v).rxOff = s.rxOff := by cases a <;> rfl
@[simp] theorem State.setAcc_rxSize (s : State) (a : Acc) (v : Option Byte) : (s.setAcc a v).rxSize = s.rxSize := by cases a <;> rfl
@[simp] theorem State.setAcc_chanOvr (s : State) (a : Acc) (v : Option Byte) : (s.setAcc a v).chanOvr = s.chanOvr := by cases a <;> rfl
@[simp] theorem State.setAcc_chanRxbuf (s : State) (a : Acc) (v : Option Byte) : (s.setAcc a v).chanRxbuf = s.chanRxbuf := by cases a <;> rfl
@[simp] theorem State.setAcc_txrdyPending (s : State) (a : Acc) (v : Option Byte) : (s.setAcc a v).txrdyPending = s.txrdyPending := by cases a <;> rfl
@[simp] theorem State.setAcc_rxrdyPending (s : State) (a : Acc) (v : Option Byte) : (s.setAcc a v).rxrdyPending = s.rxrdyPending := by cases a <;> rfl
@[simp] theorem State.setAcc_irqTxEn (s : State) (a : Acc) (v : Option Byte) : (s.setAcc a v).irqTxEn = s.irqTxEn := by cases a <;> rfl
@[simp] theorem State.setAcc_irqRxEn (s : State) (a : Acc) (v : Option Byte) : (s.setAcc a v).irqRxEn = s.irqRxEn := by cases a <;> rfl
@[simp] theorem State.setAcc_rxCallback (s : State) (a : Acc) (v : Option Byte) : (s.setAcc a v).rxCallback = s.rxCallback := by cases a <;> rfl
@[simp] theorem State.setAcc_txqCap (s : State) (a : Acc) (v : Option Byte) : (s.setAcc a v).txqCap = s.txqCap := by cases a <;> rfl
@[simp] theorem State.setAcc_txq (s : State) (a : Acc) (v : Option Byte) : (s.setAcc a v).txq = s.txq := by cases a <;> rfl
@[simp] theorem State.setAcc_rxqCap (s : State) (a : Acc) (v : Option Byte) : (s.setAcc a v).rxqCap = s.rxqCap := by cases a <;> rfl
@[simp] theorem State.setAcc_rxq (s : State) (a : Acc) (v : Option Byte) : (s.setAcc a v).rxq = s.rxq := by cases a <;> rfl
@[simp] theorem State.setAcc_packets (s : State) (a : Acc) (v : Option Byte) : (s.setAcc a v).packets = s.packets := by cases a <;> rfl
@[simp] theorem State.setAcc_trace (s : State) (a : Acc) (v : Option Byte) : (s.setAcc a v).trace = s.trace := by cases a <;> rfl
@[simp] theorem State.setAcc_result (s : State) (a : Acc) (v : Option Byte) : (s.setAcc a v).result = s.result := by cases a <;> rfl
@[simp] theorem State.setAcc_storeInput (s : State) (a : Acc) (v : Option Byte) : (s.setAcc a v).storeInput = s.storeInput := by cases a <;> rfl
@[simp] theorem State.setAcc_freeCtr (s : State) (a : Acc) (v : Option Byte) : (s.setAcc a v).freeCtr = s.freeCtr := by cases a <;> rfl
@[simp] theorem State.setAcc_program (s : State) (a : Acc) (v : Option Byte) : (s.setAcc a v).program = s.program := by cases a <;> rfl
@[simp] theorem State.setAcc_acc (s : State) (a : Acc) (v : Option Byte) : (s.setAcc a v).acc a = v := by
  cases a <;> rfl

/-! ### accRead -/

@[simp] theorem State.accRead_params (s : State) (a : Acc) : (s.accRead a).params = s.params := by unfold State.accRead; split <;> rfl
@[simp] theorem State.accRead_initialised (s : State) (a : Acc) : (s.accRead a).initialised = s.initialised := by unfold State.accRead; split <;> rfl
@[simp] theorem State.accRead_txState (s : State) (a : Acc) : (s.accRead a).txState = s.txState := by unfold State.accRead; split <;> rfl
@[simp] theorem State.accRead_txPkt (s : State) (a : Acc) : (s.accRead a).txPkt = s.txPkt := by unfold State.accRead; split <;> rfl
@[simp] theorem State.accRead_txOff (s : State) (a : Acc) : (s.accRead a).txOff = s.txOff := by unfold State.accRead; split <;> rfl
@[simp] theorem State.accRead_txCsum (s : State) (a : Acc) : (s.accRead a).txCsum = s.txCsum := by unfold State.accRead; split <;> rfl
@[simp] theorem State.accRead_rxState (s : State) (a : Acc) : (s.accRead a).rxState = s.rxState := by unfold State.accRead; split <;> rfl
@[simp] theorem State.accRead_rxPkt (s : State) (a : Acc) : (s.accRead a).rxPkt = s.rxPkt := by unfold State.accRead; split <;> rfl
@[simp] theorem State.accRead_rxOff (s : State) (a : Acc) : (s.accRead a).rxOff = s.rxOff := by unfold State.accRead; split <;> rfl
@[simp] theorem State.accRead_rxCsum (s : State) (a : Acc) : (s.accRead a).rxCsum = s.rxCsum := by unfold State.accRead; split <;> rfl
@[simp] theorem State.accRead_rxSize (s : State) (a : Acc) : (s.accRead a).rxSize = s.rxSize := by unfold State.accRead; split <;> rfl
@[simp] theorem State.accRead_chanOvr (s : State) (a : Acc) : (s.accRead a).chanOvr = s.chanOvr := by unfold State.accRead; split <;> rfl
@[simp] theorem State.accRead_chanRxbuf (s : State) (a : Acc) : (s.accRead a).chanRxbuf = s.chanRxbuf := by unfold State.accRead; split <;> rfl
@[simp] theorem State.accRead_txrdyPending (s : State) (a : Acc) : (s.accRead a).txrdyPending = s.txrdyPending := by unfold State.accRead; split <;> rfl
@[simp] theorem State.accRead_rxrdyPending (s : State) (a : Acc) : (s.accRead a).rxrdyPending = s.rxrdyPending := by unfold State.accRead; split <;> rfl
@[simp] theorem State.accRead_irqTxEn (s : State) (a : Acc) : (s.accRead a).irqTxEn = s.irqTxEn := by unfold State.accRead; split <;> rfl
@[simp] theorem State.accRead_irqRxEn (s : State) (a : Acc) : (s.accRead a).irqRxEn = s.irqRxEn := by unfold State.accRead; split <;> rfl
@[simp] theorem State.accRead_rxCallback (s : State) (a : Acc) : (s.accRead a).rxCallback = s.rxCallback := by unfold State.accRead; split <;> rfl
@[simp] theorem State.accRead_txqCap (s : State) (a : Acc) : (s.accRead a).txqCap = s.txqCap := by unfold State.accRead; split <;> rfl
@[simp] theorem State.accRead_txq (s : State) (a : Acc) : (s.accRead a).txq = s.txq := by unfold State.accRead; split <;> rfl
@[simp] theorem State.accRead_rxqCap (s : State) (a : Acc) : (s.accRead a).rxqCap = s.rxqCap := by unfold State.accRead; split <;> rfl
@[simp] theorem State.accRead_rxq (s : State) (a : Acc) : (s.accRead a).rxq = s.rxq := by unfold State.accRead; split <;> rfl
@[simp] theorem State.accRead_packets (s : State) (a : Acc) : (s.accRead a).packets = s.packets := by unfold State.accRead; split <;> rfl
@[simp] theorem State.accRead_trace (s : State) (a : Acc) : (s.accRead a).trace = s.trace := by unfold State.accRead; split <;> rfl
@[simp] theorem State.accRead_result (s : State) (a : Acc) : (s.accRead a).result = s.result := by unfold State.accRead; split <;> rfl
@[simp] theorem State.accRead_storeInput (s : State) (a : Acc) : (s.accRead a).storeInput = s.storeInput := by unfold State.accRead; split <;> rfl
@[simp] theorem State.accRead_program (s : State) (a : Acc) : (s.accRead a).program = s.program := by unfold State.accRead; split <;> rfl
theorem State.accRead_of_some (s : State) (a : Acc) (c : Byte) (h : s.acc a = some c) : s.accRead a = s := by
  simp [State.accRead, h]
theorem State.accValue_of_some (s : State) (a : Acc) (c : Byte) (h : s.acc a = some c) : s.accValue a = c := by
  simp [State.accValue, h]

/-! ### spendAnswer -/

@[simp] theorem State.spendAnswer_params (s : State) : (s.spendAnswer).params = s.params := by unfold State.spendAnswer; split <;> rfl
@[simp] theorem State.spendAnswer_initialised (s : State) : (s.spendAnswer).initialised = s.initialised := by unfold State.spendAnswer; split <;> rfl
@[simp] theorem State.spendAnswer_txState (s : State) : (s.spendAnswer).txState = s.txState := by unfold State.spendAnswer; split <;> rfl
@[simp] theorem State.spendAnswer_txPkt (s : State) : (s.spendAnswer).txPkt = s.txPkt := by unfold State.spendAnswer; split <;> rfl
@[simp] theorem State.spendAnswer_txOff (s : State) : (s.spendAnswer).txOff = s.txOff := by unfold State.spendAnswer; split <;> rfl
@[simp] theorem State.spendAnswer_txCsum (s : State) : (s.spendAnswer).txCsum = s.txCsum := by unfold State.spendAnswer; split <;> rfl
@[simp] theorem State.spendAnswer_rxState (s : State) : (s.spendAnswer).rxState = s.rxState := by unfold State.spendAnswer; split <;> rfl
@[simp] theorem State.spendAnswer_rxPkt (s : State) : (s.spendAnswer).rxPkt = s.rxPkt := by unfold State.spendAnswer; split <;> rfl
@[simp] theorem State.spendAnswer_rxOff (s : State) : (s.spendAnswer).rxOff = s.rxOff := by unfold State.spendAnswer; split <;> rfl
@[simp] theorem State.spendAnswer_rxCsum (s : State) : (s.spendAnswer).rxCsum = s.rxCsum := by unfold State.spendAnswer; split <;> rfl
@[simp] theorem State.spendAnswer_rxSize (s : State) : (s.spendAnswer).rxSize = s.rxSize := by unfold State.spendAnswer; split <;> rfl
@[simp] theorem State.spendAnswer_chanOvr (s : State) : (s.spendAnswer).chanOvr = s.chanOvr := by unfold State.spendAnswer; split <;> rfl
@[simp] theorem State.spendAnswer_chanRxbuf (s : State) : (s.spendAnswer).chanRxbuf = s.chanRxbuf := by unfold State.spendAnswer; split <;> rfl
@[simp] theorem State.spendAnswer_txrdyPending (s : State) : (s.spendAnswer).txrdyPending = s.txrdyPending := by unfold State.spendAnswer; split <;> rfl
@[simp] theorem State.spendAnswer_rxrdyPending (s : State) : (s.spendAnswer).rxrdyPending = s.rxrdyPending := by unfold State.spendAnswer; split <;> rfl
@[simp] theorem State.spendAnswer_irqTxEn (s : State) : (s.spendAnswer).irqTxEn = s.irqTxEn := by unfold State.spendAnswer; split <;> rfl
@[simp] theorem State.spendAnswer_irqRxEn (s : State) : (s.spendAnswer).irqRxEn = s.irqRxEn := by unfold State.spendAnswer; split <;> rfl
@[simp] theorem State.spendAnswer_rxCallback (s : State) : (s.spendAnswer).rxCallback = s.rxCallback := by unfold State.spendAnswer; split <;> rfl
@[simp] theorem State.spendAnswer_txqCap (s : State) : (s.spendAnswer).txqCap = s.txqCap := by unfold State.spendAnswer; split <;> rfl
@[simp] theorem State.spendAnswer_txq (s : State) : (s.spendAnswer).txq = s.txq := by unfold State.spendAnswer; split <;> rfl
@[simp] theorem State.spendAnswer_rxqCap (s : State) : (s.spendAnswer).rxqCap = s.rxqCap := by unfold State.spendAnswer; split <;> rfl
@[simp] theorem State.spendAnswer_rxq (s : State) : (s.spendAnswer).rxq = s.rxq := by unfold State.spendAnswer; split <;> rfl
@[simp] theorem State.spendAnswer_packets (s : State) : (s.spendAnswer).packets = s.packets := by unfold State.spendAnswer; split <;> rfl
@[simp] theorem State.spendAnswer_trace (s : State) : (s.spendAnswer).trace = s.trace := by unfold State.spendAnswer; split <;> rfl
@[simp] theorem State.spendAnswer_result (s : State) : (s.spendAnswer).result = s.result := by unfold State.spendAnswer; split <;> rfl
@[simp] theorem State.spendAnswer_program (s : State) : (s.spendAnswer).program = s.program := by unfold State.spendAnswer; split <;> rfl
theorem State.spendAnswer_storeInput (s : State) : s.spendAnswer.storeInput = s.storeInput.tail := by
  unfold State.spendAnswer; split <;> simp [*]

/-! ### requestPacket -/

@[simp] theorem State.requestPacket_params (s : State) (o : Owner) (d : Nat) : (s.requestPacket o d).params = s.params := by
  unfold State.requestPacket; split <;> simp
@[simp] theorem State.requestPacket_initialised (s : State) (o : Owner) (d : Nat) : (s.requestPacket o d).initialised = s.initialised := by
  unfold State.requestPacket; split <;> simp
@[simp] theorem State.requestPacket_txState (s : State) (o : Owner) (d : Nat) : (s.requestPacket o d).txState = s.txState := by
  unfold State.requestPacket; split <;> simp
@[simp] theorem State.requestPacket_txPkt (s : State) (o : Owner) (d : Nat) : (s.requestPacket o d).txPkt = s.txPkt := by
  unfold State.requestPacket; split <;> simp
@[simp] theorem State.requestPacket_txOff (s : State) (o : Owner) (d : Nat) : (s.requestPacket o d).txOff = s.txOff := by
  unfold State.requestPacket; split <;> simp
@[simp] theorem State.requestPacket_txCsum (s : State) (o : Owner) (d : Nat) : (s.requestPacket o d).txCsum = s.txCsum := by
  unfold State.requestPacket; split <;> simp
@[simp] theorem State.requestPacket_rxState (s : State) (o : Owner) (d : Nat) : (s.requestPacket o d).rxState = s.rxState := by
  unfold State.requestPacket; split <;> simp
@[simp] theorem State.requestPacket_rxPkt (s : State) (o : Owner) (d : Nat) : (s.requestPacket o d).rxPkt = s.rxPkt := by
  unfold State.requestPacket; split <;> simp
@[simp] theorem State.requestPacket_rxOff (s : State) (o : Owner) (d : Nat) : (s.requestPacket o d).rxOff = s.rxOff := by
  unfold State.requestPacket; split <;> simp
@[simp] theorem State.requestPacket_rxCsum (s : State) (o : Owner) (d : Nat) : (s.requestPacket o d).rxCsum = s.rxCsum := by
  unfold State.requestPacket; split <;> simp
@[simp] theorem State.requestPacket_rxSize (s : State) (o : Owner) (d : Nat) : (s.requestPacket o d).rxSize = s.rxSize := by
  unfold State.requestPacket; split <;> simp
@[simp] theorem State.requestPacket_chanOvr (s : State) (o : Owner) (d : Nat) : (s.requestPacket o d).chanOvr = s.chanOvr := by
  unfold State.requestPacket; split <;> simp
@[simp] theorem State.requestPacket_chanRxbuf (s : State) (o : Owner) (d : Nat) : (s.requestPacket o d).chanRxbuf = s.chanRxbuf := by
  unfold State.requestPacket; split <;> simp
@[simp] theorem State.requestPacket_txrdyPending (s : State) (o : Owner) (d : Nat) : (s.requestPacket o d).txrdyPending = s.txrdyPending := by
  unfold State.requestPacket; split <;> simp
@[simp] theorem State.requestPacket_rxrdyPending (s : State) (o : Owner) (d : Nat) : (s.requestPacket o d).rxrdyPending = s.rxrdyPending := by
  unfold State.requestPacket; split <;> simp
@[simp] theorem State.requestPacket_irqTxEn (s : State) (o : Owner) (d : Nat) : (s.requestPacket o d).irqTxEn = s.irqTxEn := by
  unfold State.requestPacket; split <;> simp
@[simp] theorem State.requestPacket_irqRxEn (s : State) (o : Owner) (d : Nat) : (s.requestPacket o d).irqRxEn = s.irqRxEn := by
  unfold State.requestPacket; split <;> simp
@[simp] theorem State.requestPacket_rxCallback (s : State) (o : Owner) (d : Nat) : (s.requestPacket o d).rxCallback = s.rxCallback := by
  unfold State.requestPacket; split <;> simp
@[simp] theorem State.requestPacket_txqCap (s : State) (o : Owner) (d : Nat) : (s.requestPacket o d).txqCap = s.txqCap := by
  unfold State.requestPacket; split <;> simp
@[simp] theorem State.requestPacket_txq (s : State) (o : Owner) (d : Nat) : (s.requestPacket o d).txq = s.txq := by
  unfold State.requestPacket; split <;> simp
@[simp] theorem State.requestPacket_rxqCap (s : State) (o : Owner) (d : Nat) : (s.requestPacket o d).rxqCap = s.rxqCap := by
  unfold State.requestPacket; split <;> simp
@[simp] theorem State.requestPacket_rxq (s : State) (o : Owner) (d : Nat) : (s.requestPacket o d).rxq = s.rxq := by
  unfold State.requestPacket; split <;> simp
@[simp] theorem State.requestPacket_result (s : State) (o : Owner) (d : Nat) : (s.requestPacket o d).result = s.result := by
  unfold State.requestPacket; split <;> simp
@[simp] theorem State.requestPacket_program (s : State) (o : Owner) (d : Nat) : (s.requestPacket o d).program = s.program := by
  unfold State.requestPacket; split <;> simp

/-! ### raiseEvent -/

@[simp] theorem State.raiseEvent_params (s : State) (c : Source) : (s.raiseEvent c).params = s.params := by cases c <;> rfl
@[simp] theorem State.raiseEvent_initialised (s : State) (c : Source) : (s.raiseEvent c).initialised = s.initialised := by cases c <;> rfl
@[simp] theorem State.raiseEvent_txState (s : State) (c : Source) : (s.raiseEvent c).txState = s.txState := by cases c <;> rfl
@[simp] theorem State.raiseEvent_txPkt (s : State) (c : Source) : (s.raiseEvent c).txPkt = s.txPkt := by cases c <;> rfl
@[simp] theorem State.raiseEvent_txOff (s : State) (c : Source) : (s.raiseEvent c).txOff = s.txOff := by cases c <;> rfl
@[simp] theorem State.raiseEvent_txCsum (s : State) (c : Source) : (s.raiseEvent c).txCsum = s.txCsum := by cases c <;> rfl
@[simp] theorem State.raiseEvent_rxState (s : State) (c : Source) : (s.raiseEvent c).rxState = s.rxState := by cases c <;> rfl
@[simp] theorem State.raiseEvent_rxPkt (s : State) (c : Source) : (s.raiseEvent c).rxPkt = s.rxPkt := by cases c <;> rfl
@[simp] theorem State.raiseEvent_rxOff (s : State) (c : Source) : (s.raiseEvent c).rxOff = s.rxOff := by cases c <;> rfl
@[simp] theorem State.raiseEvent_rxCsum (s : State) (c : Source) : (s.raiseEvent c).rxCsum = s.rxCsum := by cases c <;> rfl
@[simp] theorem State.raiseEvent_rxSize (s : State) (c : Source) : (s.raiseEvent c).rxSize = s.rxSize := by cases c <;> rfl
@[simp] theorem State.raiseEvent_chanOvr (s : State) (c : Source) : (s.raiseEvent c).chanOvr = s.chanOvr := by cases c <;> rfl
@[simp] theorem State.raiseEvent_chanRxbuf (s : State) (c : Source) : (s.raiseEvent c).chanRxbuf = s.chanRxbuf := by cases c <;> rfl
@[simp] theorem State.raiseEvent_irqTxEn (s : State) (c : Source) : (s.raiseEvent c).irqTxEn = s.irqTxEn := by cases c <;> rfl
@[simp] theorem State.raiseEvent_irqRxEn (s : State) (c : Source) : (s.raiseEvent c).irqRxEn = s.irqRxEn := by cases c <;> rfl
@[simp] theorem State.raiseEvent_rxCallback (s : State) (c : Source) : (s.raiseEvent c).rxCallback = s.rxCallback := by cases c <;> rfl
@[simp] theorem State.raiseEvent_txqCap (s : State) (c : Source) : (s.raiseEvent c).txqCap = s.txqCap := by cases c <;> rfl
@[simp] theorem State.raiseEvent_txq (s : State) (c : Source) : (s.raiseEvent c).txq = s.txq := by cases c <;> rfl
@[simp] theorem State.raiseEvent_rxqCap (s : State) (c : Source) : (s.raiseEvent c).rxqCap = s.rxqCap := by cases c <;> rfl
@[simp] theorem State.raiseEvent_rxq (s : State) (c : Source) : (s.raiseEvent c).rxq = s.rxq := by cases c <;> rfl
@[simp] theorem State.raiseEvent_packets (s : State) (c : Source) : (s.raiseEvent c).packets = s.packets := by cases c <;> rfl
@[simp] theorem State.raiseEvent_trace (s : State) (c : Source) : (s.raiseEvent c).trace = s.trace := by cases c <;> rfl
@[simp] theorem State.raiseEvent_result (s : State) (c : Source) : (s.raiseEvent c).result = s.result := by cases c <;> rfl
@[simp] theorem State.raiseEvent_storeInput (s : State) (c : Source) : (s.raiseEvent c).storeInput = s.storeInput := by cases c <;> rfl
@[simp] theorem State.raiseEvent_freeCtr (s : State) (c : Source) : (s.raiseEvent c).freeCtr = s.freeCtr := by cases c <;> rfl
@[simp] theorem State.raiseEvent_program (s : State) (c : Source) : (s.raiseEvent c).program = s.program := by cases c <;> rfl

/-! ### enterHandler -/

@[simp] theorem State.enterHandler_params (s : State) (c : Source) : (s.enterHandler c).params = s.params := by cases c <;> rfl
@[simp] theorem State.enterHandler_initialised (s : State) (c : Source) : (s.enterHandler c).initialised = s.initialised := by cases c <;> rfl
@[simp] theorem State.enterHandler_txState (s : State) (c : Source) : (s.enterHandler c).txState = s.txState := by cases c <;> rfl
@[simp] theorem State.enterHandler_txPkt (s : State) (c : Source) : (s.enterHandler c).txPkt = s.txPkt := by cases c <;> rfl
@[simp] theorem State.enterHandler_txOff (s : State) (c : Source) : (s.enterHandler c).txOff = s.txOff := by cases c <;> rfl
@[simp] theorem State.enterHandler_txCsum (s : State) (c : Source) : (s.enterHandler c).txCsum = s.txCsum := by cases c <;> rfl
@[simp] theorem State.enterHandler_rxState (s : State) (c : Source) : (s.enterHandler c).rxState = s.rxState := by cases c <;> rfl
@[simp] theorem State.enterHandler_rxPkt (s : State) (c : Source) : (s.enterHandler c).rxPkt = s.rxPkt := by cases c <;> rfl
@[simp] theorem State.enterHandler_rxOff (s : State) (c : Source) : (s.enterHandler c).rxOff = s.rxOff := by cases c <;> rfl
@[simp] theorem State.enterHandler_rxCsum (s : State) (c : Source) : (s.enterHandler c).rxCsum = s.rxCsum := by cases c <;> rfl
@[simp] theorem State.enterHandler_rxSize (s : State) (c : Source) : (s.enterHandler c).rxSize = s.rxSize := by cases c <;> rfl
@[simp] theorem State.enterHandler_chanOvr (s : State) (c : Source) : (s.enterHandler c).chanOvr = s.chanOvr := by cases c <;> rfl
@[simp] theorem State.enterHandler_chanRxbuf (s : State) (c : Source) : (s.enterHandler c).chanRxbuf = s.chanRxbuf := by cases c <;> rfl
@[simp] theorem State.enterHandler_irqTxEn (s : State) (c : Source) : (s.enterHandler c).irqTxEn = s.irqTxEn := by cases c <;> rfl
@[simp] theorem State.enterHandler_irqRxEn (s : State) (c : Source) : (s.enterHandler c).irqRxEn = s.irqRxEn := by cases c <;> rfl
@[simp] theorem State.enterHandler_rxCallback (s : State) (c : Source) : (s.enterHandler c).rxCallback = s.rxCallback := by cases c <;> rfl
@[simp] theorem State.enterHandler_txqCap (s : State) (c : Source) : (s.enterHandler c).txqCap = s.txqCap := by cases c <;> rfl
@[simp] theorem State.enterHandler_txq (s : State) (c : Source) : (s.enterHandler c).txq = s.txq := by cases c <;> rfl
@[simp] theorem State.enterHandler_rxqCap (s : State) (c : Source) : (s.enterHandler c).rxqCap = s.rxqCap := by cases c <;> rfl
@[simp] theorem State.enterHandler_rxq (s : State) (c : Source) : (s.enterHandler c).rxq = s.rxq := by cases c <;> rfl
@[simp] theorem State.enterHandler_packets (s : State) (c : Source) : (s.enterHandler c).packets = s.packets := by cases c <;> rfl
@[simp] theorem State.enterHandler_trace (s : State) (c : Source) : (s.enterHandler c).trace = s.trace := by cases c <;> rfl
@[simp] theorem State.enterHandler_result (s : State) (c : Source) : (s.enterHandler c).result = s.result := by cases c <;> rfl
@[simp] theorem State.enterHandler_storeInput (s : State) (c : Source) : (s.enterHandler c).storeInput = s.storeInput := by cases c <;> rfl
@[simp] theorem State.enterHandler_freeCtr (s : State) (c : Source) : (s.enterHandler c).freeCtr = s.freeCtr := by cases c <;> rfl
@[simp] theorem State.enterHandler_program (s : State) (c : Source) : (s.enterHandler c).program = s.program := by cases c <;> rfl

/-! ### setEnable -/

@[simp] theorem State.setEnable_params (s : State) (c : Source) (b : Bool) : (s.setEnable c b).params = s.params := by cases c <;> rfl
@[simp] theorem State.setEnable_initialised (s : State) (c : Source) (b : Bool) : (s.setEnable c b).initialised = s.initialised := by cases c <;> rfl
@[simp] theorem State.setEnable_txState (s : State) (c : Source) (b : Bool) : (s.setEnable c b).txState = s.txState := by cases c <;> rfl
@[simp] theorem State.setEnable_txPkt (s : State) (c : Source) (b : Bool) : (s.setEnable c b).txPkt = s.txPkt := by cases c <;> rfl
@[simp] theorem State.setEnable_txOff (s : State) (c : Source) (b : Bool) : (s.setEnable c b).txOff = s.txOff := by cases c <;> rfl
@[simp] theorem State.setEnable_txCsum (s : State) (c : Source) (b : Bool) : (s.setEnable c b).txCsum = s.txCsum := by cases c <;> rfl
@[simp] theorem State.setEnable_rxState (s : State) (c : Source) (b : Bool) : (s.setEnable c b).rxState = s.rxState := by cases c <;> rfl
@[simp] theorem State.setEnable_rxPkt (s : State) (c : Source) (b : Bool) : (s.setEnable c b).rxPkt = s.rxPkt := by cases c <;> rfl
@[simp] theorem State.setEnable_rxOff (s : State) (c : Source) (b : Bool) : (s.setEnable c b).rxOff = s.rxOff := by cases c <;> rfl
@[simp] theorem State.setEnable_rxCsum (s : State) (c : Source) (b : Bool) : (s.setEnable c b).rxCsum = s.rxCsum := by cases c <;> rfl
@[simp] theorem State.setEnable_rxSize (s : State) (c : Source) (b : Bool) : (s.setEnable c b).rxSize = s.rxSize := by cases c <;> rfl
@[simp] theorem State.setEnable_chanOvr (s : State) (c : Source) (b : Bool) : (s.setEnable c b).chanOvr = s.chanOvr := by cases c <;> rfl
@[simp] theorem State.setEnable_chanRxbuf (s : State) (c : Source) (b : Bool) : (s.setEnable c b).chanRxbuf = s.chanRxbuf := by cases c <;> rfl
@[simp] theorem State.setEnable_txrdyPending (s : State) (c : Source) (b : Bool) : (s.setEnable c b).txrdyPending = s.txrdyPending := by cases c <;> rfl
@[simp] theorem State.setEnable_rxrdyPending (s : State) (c : Source) (b : Bool) : (s.setEnable c b).rxrdyPending = s.rxrdyPending := by cases c <;> rfl
@[simp] theorem State.setEnable_rxCallback (s : State) (c : Source) (b : Bool) : (s.setEnable c b).rxCallback = s.rxCallback := by cases c <;> rfl
@[simp] theorem State.setEnable_txqCap (s : State) (c : Source) (b : Bool) : (s.setEnable c b).txqCap = s.txqCap := by cases c <;> rfl
@[simp] theorem State.setEnable_txq (s : State) (c : Source) (b : Bool) : (s.setEnable c b).txq = s.txq := by cases c <;> rfl
@[simp] theorem State.setEnable_rxqCap (s : State) (c : Source) (b : Bool) : (s.setEnable c b).rxqCap = s.rxqCap := by cases c <;> rfl
@[simp] theorem State.setEnable_rxq (s : State) (c : Source) (b : Bool) : (s.setEnable c b).rxq = s.rxq := by cases c <;> rfl
@[simp] theorem State.setEnable_packets (s : State) (c : Source) (b : Bool) : (s.setEnable c b).packets = s.packets := by cases c <;> rfl
@[simp] theorem State.setEnable_trace (s : State) (c : Source) (b : Bool) : (s.setEnable c b).trace = s.trace := by cases c <;> rfl
@[simp] theorem State.setEnable_result (s : State) (c : Source) (b : Bool) : (s.setEnable c b).result = s.result := by cases c <;> rfl
@[simp] theorem State.setEnable_storeInput (s : State) (c : Source) (b : Bool) : (s.setEnable c b).storeInput = s.storeInput := by cases c <;> rfl
@[simp] theorem State.setEnable_freeCtr (s : State) (c : Source) (b : Bool) : (s.setEnable c b).freeCtr = s.freeCtr := by cases c <;> rfl
@[simp] theorem State.setEnable_program (s : State) (c : Source) (b : Bool) : (s.setEnable c b).program = s.program := by cases c <;> rfl

end Sys2Proof.Machine
end

