-- ==== Sys2Proof/Laws/Ops.lean ====
section
/-! SUPPORT. What each shared operation can do, said once: sequencing, the key and value lists, the packets, the accesses
to them, the store's answer. -/

namespace Sys2Proof.Machine

/-! ### Sequencing -/

@[simp] theorem andThen_next (s : State) (k : State → Res) : andThen (.next s) k = k s := rfl
@[simp] theorem andThen_fault (f : Fault) (k : State → Res) : andThen (.fault f) k = .fault f := rfl
@[simp] theorem andThen_refused (f : Refusal) (k : State → Res) : andThen (.refused f) k = .refused f := rfl

/-- An operation in sequence answers a next state only where both parts do. -/
theorem andThen_eq_next {r : Res} {k : State → Res} {t : State} (h : andThen r k = .next t) :
    ∃ s, r = .next s ∧ k s = .next t := by
  cases r with
  | next s => exact ⟨s, rfl, h⟩
  | fault f => cases h
  | refused f => cases h

theorem ready_params {s : State} (h : s.ready = true) : s.params.ok = true := by
  simp [State.ready] at h; exact h.1

theorem ready_initialised {s : State} (h : s.ready = true) : s.initialised = true := by
  simp [State.ready] at h; exact h.2

/-- On an initialised block an operation is its body. -/
theorem whenReady_of_ready {s : State} (h : s.ready = true) (r : Res) : whenReady s r = r := by
  simp [whenReady, ready_params h, ready_initialised h]

/-- An operation answers a next state only on an initialised block. -/
theorem whenReady_eq_next {s t : State} {r : Res} (h : whenReady s r = .next t) : s.ready = true ∧ r = .next t := by
  unfold whenReady at h
  split at h
  · cases h
  · split at h
    · cases h
    · exact ⟨by simp_all [State.ready], h⟩

/-- A row answers a next state only where its guard selects it. -/
theorem whenSelected_eq_next {g : Bool} {t : State} {r : Res} (h : whenSelected g r = .next t) :
    g = true ∧ r = .next t := by
  unfold whenSelected at h
  split at h
  · exact ⟨‹_›, h⟩
  · cases h

/-! ### Key and value lists -/

section
variable {α : Type}

@[simp] theorem lookup_erase_self (k : Nat) (l : List (Nat × α)) : lookup k (erase k l) = none := by
  induction l with
  | nil => rfl
  | cons e l ih => by_cases h : e.1 = k <;> simp [erase, lookup, h, ih]

theorem lookup_erase_ne {k j : Nat} (h : j ≠ k) (l : List (Nat × α)) : lookup j (erase k l) = lookup j l := by
  induction l with
  | nil => rfl
  | cons e l ih =>
    by_cases hk : e.1 = k
    · have : ¬ k = j := fun c => h c.symm
      simp [erase, lookup, hk, ih, this]
    · simp [erase, lookup, hk, ih]

theorem lookup_place_self {k : Nat} {l : List (Nat × α)} (v : α) (h : lookup k l = none) :
    lookup k (place k v l) = some v := by
  induction l with
  | nil => simp [place, lookup]
  | cons e l ih =>
    by_cases hk : k < e.1
    · simp [place, hk, lookup]
    · have hne : e.1 ≠ k := fun c => by simp [lookup, c] at h
      simp only [lookup, hne, if_false] at h
      simp [place, hk, lookup, hne, ih h]

theorem lookup_place_ne {k j : Nat} (h : j ≠ k) (v : α) (l : List (Nat × α)) :
    lookup j (place k v l) = lookup j l := by
  have hk : ¬ k = j := fun c => h c.symm
  induction l with
  | nil => simp [place, lookup, hk]
  | cons e l ih => by_cases hlt : k < e.1 <;> simp [place, hlt, lookup, hk, ih]

/-- What was written is what is read. -/
@[simp] theorem lookup_update_self (k : Nat) (v : α) (l : List (Nat × α)) : lookup k (update k v l) = some v :=
  lookup_place_self v (lookup_erase_self k l)

/-- A write leaves every other key alone. -/
theorem lookup_update_ne {k j : Nat} (h : j ≠ k) (v : α) (l : List (Nat × α)) :
    lookup j (update k v l) = lookup j l := by
  rw [update, lookup_place_ne h, lookup_erase_ne h]

theorem rising_tail {e : Nat × α} {l : List (Nat × α)} (h : rising (e :: l) = true) : rising l = true := by
  cases l with
  | nil => rfl
  | cons a l => simp [rising] at h; exact h.2

theorem rising_lt_all {e : Nat × α} {l : List (Nat × α)} (h : rising (e :: l) = true) : ∀ a ∈ l, e.1 < a.1 := by
  induction l generalizing e with
  | nil => simp
  | cons a l ih =>
    simp [rising] at h
    intro b hb
    rcases List.mem_cons.1 hb with rfl | hb
    · exact h.1
    · exact lt_trans h.1 (ih h.2 b hb)

theorem rising_cons {e : Nat × α} {l : List (Nat × α)} (hl : rising l = true) (h : ∀ a ∈ l, e.1 < a.1) :
    rising (e :: l) = true := by
  cases l with
  | nil => rfl
  | cons a l => simp [rising, hl, h a (by simp)]

theorem mem_erase {k : Nat} {e : Nat × α} {l : List (Nat × α)} (h : e ∈ erase k l) : e ∈ l ∧ e.1 ≠ k := by
  induction l with
  | nil => cases h
  | cons a l ih =>
    by_cases hk : a.1 = k
    · simp only [erase, hk, if_true] at h
      exact ⟨List.mem_cons_of_mem _ (ih h).1, (ih h).2⟩
    · simp only [erase, hk, if_false] at h
      rcases List.mem_cons.1 h with rfl | h
      · exact ⟨by simp, hk⟩
      · exact ⟨List.mem_cons_of_mem _ (ih h).1, (ih h).2⟩

theorem rising_erase (k : Nat) {l : List (Nat × α)} (h : rising l = true) : rising (erase k l) = true := by
  induction l with
  | nil => rfl
  | cons a l ih =>
    by_cases hk : a.1 = k
    · simpa [erase, hk] using ih (rising_tail h)
    · simp only [erase, hk, if_false]
      exact rising_cons (ih (rising_tail h)) fun b hb => rising_lt_all h b (mem_erase hb).1

theorem mem_place {k : Nat} {v : α} {e : Nat × α} {l : List (Nat × α)} (h : e ∈ place k v l) :
    e = (k, v) ∨ e ∈ l := by
  induction l with
  | nil => simpa [place] using h
  | cons a l ih =>
    by_cases hk : k < a.1
    · simpa [place, hk] using h
    · simp only [place, hk, if_false] at h
      rcases List.mem_cons.1 h with rfl | h
      · simp
      · rcases ih h with h | h
        · exact .inl h
        · exact .inr (List.mem_cons_of_mem _ h)

theorem rising_place {k : Nat} (v : α) {l : List (Nat × α)} (h : rising l = true) (hk : ∀ a ∈ l, a.1 ≠ k) :
    rising (place k v l) = true := by
  induction l with
  | nil => rfl
  | cons a l ih =>
    by_cases hlt : k < a.1
    · simp only [place, hlt, if_true]
      refine rising_cons h fun b hb => ?_
      rcases List.mem_cons.1 hb with rfl | hb
      · exact hlt
      · exact lt_trans hlt (rising_lt_all h b hb)
    · simp only [place, hlt, if_false]
      refine rising_cons (ih (rising_tail h) fun b hb => hk b (List.mem_cons_of_mem _ hb)) fun b hb => ?_
      rcases mem_place hb with rfl | hb
      · have := hk a (by simp)
        simp only; omega
      · exact rising_lt_all h b hb

/-- An update keeps the keys strictly rising. -/
theorem rising_update (k : Nat) (v : α) {l : List (Nat × α)} (h : rising l = true) : rising (update k v l) = true :=
  rising_place v (rising_erase k h) fun _ ha => (mem_erase ha).2

theorem mem_update {k : Nat} {v : α} {e : Nat × α} {l : List (Nat × α)} (h : e ∈ update k v l) :
    e = (k, v) ∨ e ∈ l :=
  (mem_place h).imp id fun h => (mem_erase h).1

theorem mem_of_lookup {k : Nat} {v : α} {l : List (Nat × α)} (h : lookup k l = some v) : (k, v) ∈ l := by
  induction l with
  | nil => cases h
  | cons a l ih =>
    by_cases hk : a.1 = k
    · simp only [lookup, hk, if_true, Option.some.injEq] at h
      simp [← hk, ← h]
    · simp only [lookup, hk, if_false] at h
      exact List.mem_cons_of_mem _ (ih h)

end

/-! ### Every memory operation keeps the canonical form -/

/-- The check of one entry of the memory. -/
theorem Memory.wf_iff (m : Memory) : m.wf = true ↔ rising m = true ∧
    ∀ e ∈ m, e.2.owner ≠ .store ∧ rising e.2.cells = true ∧ ∀ c ∈ e.2.cells, c.1 < e.2.len := by
  simp [Memory.wf, and_assoc]

theorem Memory.wf_update {m : Memory} (h : m.wf = true) (p : Handle) {k : Packet} (ho : k.owner ≠ .store)
    (hr : rising k.cells = true) (hc : ∀ c ∈ k.cells, c.1 < k.len) : Memory.wf (update p.id k m) = true := by
  rw [Memory.wf_iff] at h ⊢
  refine ⟨rising_update _ _ h.1, fun e he => ?_⟩
  rcases mem_update he with rfl | he
  · exact ⟨ho, hr, hc⟩
  · exact h.2 e he

theorem Memory.wf_setOwner {m : Memory} (h : m.wf = true) (p : Handle) {o : Owner} (ho : o ≠ .store) :
    (m.setOwner p o).wf = true := by
  unfold Memory.setOwner
  split
  · rename_i k hk
    have := ((Memory.wf_iff m).1 h).2 _ (mem_of_lookup hk)
    exact Memory.wf_update h p ho this.2.1 this.2.2
  · exact h

theorem Memory.wf_setCell {m : Memory} (h : m.wf = true) (p : Handle) (i : Nat) (v : Byte)
    (hi : ∀ n, m.lenOf p = some n → i < n) : (m.setCell p i v).wf = true := by
  unfold Memory.setCell
  split
  · rename_i k hk
    have := ((Memory.wf_iff m).1 h).2 _ (mem_of_lookup hk)
    refine Memory.wf_update h p this.1 (rising_update _ _ this.2.1) fun c hc => ?_
    rcases mem_update hc with rfl | hc
    · exact hi _ (by simp [Memory.lenOf, hk])
    · exact this.2.2 c hc
  · exact h

theorem Memory.wf_obtain {m : Memory} (h : m.wf = true) (p : Handle) {o : Owner} (ho : o ≠ .store) (n : Nat) :
    (m.obtain p o n).wf = true :=
  Memory.wf_update h p ho rfl (by simp)

theorem Memory.wf_release {m : Memory} (h : m.wf = true) (p : Handle) : (m.release p).wf = true := by
  rw [Memory.wf_iff] at h ⊢
  exact ⟨rising_erase _ h.1, fun e he => h.2 e (mem_erase he).1⟩

theorem Memory.wf_reset : Memory.wf State.reset.packets = true := rfl

/-! ### What is read after a memory operation -/

theorem Handle.id_ne {p q : Handle} (h : q ≠ p) : q.id ≠ p.id := fun c => h (by cases p; cases q; simp_all)

theorem Memory.lookup_setOwner_ne {p q : Handle} (h : q ≠ p) (m : Memory) (o : Owner) :
    lookup q.id (m.setOwner p o) = lookup q.id m := by
  unfold Memory.setOwner; split
  · exact lookup_update_ne (Handle.id_ne h) _ _
  · rfl

theorem Memory.lookup_setCell_ne {p q : Handle} (h : q ≠ p) (m : Memory) (i : Nat) (v : Byte) :
    lookup q.id (m.setCell p i v) = lookup q.id m := by
  unfold Memory.setCell; split
  · exact lookup_update_ne (Handle.id_ne h) _ _
  · rfl

theorem Memory.lookup_obtain_ne {p q : Handle} (h : q ≠ p) (m : Memory) (o : Owner) (n : Nat) :
    lookup q.id (m.obtain p o n) = lookup q.id m :=
  lookup_update_ne (Handle.id_ne h) _ _

theorem Memory.lookup_release_ne {p q : Handle} (h : q ≠ p) (m : Memory) :
    lookup q.id (m.release p) = lookup q.id m :=
  lookup_erase_ne (Handle.id_ne h) _

@[simp] theorem Memory.ownerOf_release_self (m : Memory) (p : Handle) : (m.release p).ownerOf p = .store := by
  simp [Memory.ownerOf, Memory.release]

@[simp] theorem Memory.ownerOf_obtain_self (m : Memory) (p : Handle) (o : Owner) (n : Nat) :
    (m.obtain p o n).ownerOf p = o := by
  simp [Memory.ownerOf, Memory.obtain]

@[simp] theorem Memory.lenOf_obtain_self (m : Memory) (p : Handle) (o : Owner) (n : Nat) :
    (m.obtain p o n).lenOf p = some n := by
  simp [Memory.lenOf, Memory.obtain]

@[simp] theorem Memory.cell_obtain_self (m : Memory) (p : Handle) (o : Owner) (n i : Nat) :
    (m.obtain p o n).cell p i = none := by
  simp [Memory.cell, Memory.obtain, lookup]

/-- The owner after a packet passes on. -/
theorem Memory.ownerOf_setOwner (m : Memory) (p q : Handle) (o : Owner) (h : m.ownerOf p ≠ .store) :
    (m.setOwner p o).ownerOf q = if q = p then o else m.ownerOf q := by
  by_cases hq : q = p
  · subst hq
    unfold Memory.ownerOf at h
    unfold Memory.setOwner Memory.ownerOf
    split at h
    · simp
    · exact absurd rfl h
  · simp [Memory.ownerOf, Memory.lookup_setOwner_ne hq, hq]

@[simp] theorem Memory.lenOf_setOwner (m : Memory) (p q : Handle) (o : Owner) :
    (m.setOwner p o).lenOf q = m.lenOf q := by
  by_cases hq : q = p
  · subst hq; cases hk : lookup q.id m <;> simp [Memory.setOwner, Memory.lenOf, hk]
  · simp [Memory.lenOf, Memory.lookup_setOwner_ne hq]

@[simp] theorem Memory.cell_setOwner (m : Memory) (p q : Handle) (o : Owner) (i : Nat) :
    (m.setOwner p o).cell q i = m.cell q i := by
  by_cases hq : q = p
  · subst hq; cases hk : lookup q.id m <;> simp [Memory.setOwner, Memory.cell, hk]
  · simp [Memory.cell, Memory.lookup_setOwner_ne hq]

@[simp] theorem Memory.lenOf_setCell (m : Memory) (p q : Handle) (i : Nat) (v : Byte) :
    (m.setCell p i v).lenOf q = m.lenOf q := by
  by_cases hq : q = p
  · subst hq; cases hk : lookup q.id m <;> simp [Memory.setCell, Memory.lenOf, hk]
  · simp [Memory.lenOf, Memory.lookup_setCell_ne hq]

@[simp] theorem Memory.ownerOf_setCell (m : Memory) (p q : Handle) (i : Nat) (v : Byte) :
    (m.setCell p i v).ownerOf q = m.ownerOf q := by
  by_cases hq : q = p
  · subst hq; cases hk : lookup q.id m <;> simp [Memory.setCell, Memory.ownerOf, hk]
  · simp [Memory.ownerOf, Memory.lookup_setCell_ne hq]

/-- The cells after one is written. -/
theorem Memory.cell_setCell (m : Memory) (p q : Handle) (i j : Nat) (v : Byte) (h : m.ownerOf p ≠ .store) :
    (m.setCell p i v).cell q j = if q = p ∧ j = i then some v else m.cell q j := by
  by_cases hq : q = p
  · subst hq
    unfold Memory.ownerOf at h
    unfold Memory.setCell Memory.cell
    split at h
    · by_cases hj : j = i
      · simp [hj]
      · simp [hj, lookup_update_ne hj]
    · exact absurd rfl h
  · simp [Memory.cell, Memory.lookup_setCell_ne hq, hq]

/-! ### What each access can do -/

/-- MemRead answers a byte exactly for the owner, in range, of a written cell. -/
theorem State.memRead_eq_ok {s : State} {o : Owner} {p : Handle} {i : Nat} {b : Byte} (h : s.memRead o p i = .ok b) :
    ∃ k, lookup p.id s.packets = some k ∧ k.owner = o ∧ i < k.len ∧ lookup i k.cells = some b := by
  unfold State.memRead at h
  split at h
  · cases h
  · rename_i k hk
    split at h
    · cases h
    · split at h
      · cases h
      · split at h
        · cases h
        · rename_i hc; cases h; exact ⟨k, hk, by simp_all, by omega, hc⟩

/-- MemWrite answers a next state exactly for the owner, in range, and writes that cell. -/
theorem State.memWrite_eq_next {s t : State} {o : Owner} {p : Handle} {i : Nat} {v : Byte}
    (h : s.memWrite o p i v = .next t) :
    (∃ k, lookup p.id s.packets = some k ∧ k.owner = o ∧ i < k.len) ∧ t = { s with packets := s.packets.setCell p i v } := by
  unfold State.memWrite at h
  split at h
  · cases h
  · rename_i k hk
    split at h
    · cases h
    · split at h
      · cases h
      · cases h; exact ⟨⟨k, hk, by simp_all, by omega⟩, rfl⟩

/-- A transfer answers a next state exactly from the packet's owner. -/
theorem State.transfer_eq_next {s t : State} {p : Handle} {src dst : Owner} (h : s.transfer p src dst = .next t) :
    (src ≠ .store ∧ s.packets.ownerOf p = src) ∧ t = { s with packets := s.packets.setOwner p dst } := by
  unfold State.transfer at h
  split at h
  · cases h; exact ⟨‹_›, rfl⟩
  · cases h

/-- returnPacket answers a next state exactly from the packet's owner. -/
theorem State.returnPacket_eq_next {s t : State} {o : Owner} {p : Handle} (h : s.returnPacket o p = .next t) :
    (o ≠ .store ∧ s.packets.ownerOf p = o) ∧
      t = State.emit { s with packets := s.packets.release p } (.storeRet p) := by
  unfold State.returnPacket at h
  split at h
  · cases h; exact ⟨‹_›, rfl⟩
  · cases h

/-- The callback is shown the whole payload and changes nothing but the trace. -/
theorem State.runCallback_eq_next {s t : State} {p : Handle} (h : s.runCallback p = .next t) :
    ∃ bytes, s.packets.ownerOf p = .rx ∧ s.packets.payload p = some bytes ∧
      t = s.emit (.callback s.rxCallback p bytes) := by
  unfold State.runCallback at h
  split at h
  · split at h
    · rename_i ho _ bytes hb; cases h; exact ⟨bytes, ho, hb, rfl⟩
    · cases h
  · cases h

/-- The single law of the store (R64): a handle answered was owned by STORE. -/
theorem State.storeAnswer_owner {s : State} {d : Nat} {p : Handle} (h : s.storeAnswer d = some p) :
    s.packets.ownerOf p = .store := by
  unfold State.storeAnswer at h
  split at h
  · split at h
    · cases h; assumption
    · cases h
  · cases h

theorem State.requestPacket_of_some {s : State} {o : Owner} {d : Nat} {p : Handle} (h : s.storeAnswer d = some p) :
    (s.requestPacket o d).packets = s.packets.obtain p o (d + s.params.headerLength) ∧
      (s.requestPacket o d).trace = s.trace ++ [.storeReq d (some p)] := by
  simp [State.requestPacket, h]

theorem State.requestPacket_of_none {s : State} {o : Owner} {d : Nat} (h : s.storeAnswer d = none) :
    (s.requestPacket o d).packets = s.packets ∧ (s.requestPacket o d).trace = s.trace ++ [.storeReq d none] := by
  simp [State.requestPacket, h]

theorem State.requestPacket_storeInput (s : State) (o : Owner) (d : Nat) :
    (s.requestPacket o d).storeInput = s.storeInput.tail := by
  unfold State.requestPacket
  split <;> simp [State.spendAnswer_storeInput]

/-- tryAddTail adds exactly where there is room (R67). -/
theorem State.tryAddTail_of_room {s : State} {q : QName} (h : s.hasRoom q = true) (p : Handle) :
    s.tryAddTail q p = (s.setQueue q (s.queue q ++ [p])).emit (.qAdd q p true) := by
  simp [State.tryAddTail, h]

theorem State.tryAddTail_of_full {s : State} {q : QName} (h : s.hasRoom q = false) (p : Handle) :
    s.tryAddTail q p = s.emit (.qAdd q p false) := by
  simp [State.tryAddTail, h]

end Sys2Proof.Machine
end

