-- ==== Sys2Proof/Laws/Families.lean ====
section
/-! SUPPORT. What the operations a family shares can do, said once: a served row of TX.ADV, a row of RX.BYTE, a critical
section, the defensive release, the drain loop, the frame of RX.BYTE, and TX.ADV and RX.BYTE as the rows the decoder names. -/

namespace Sys2Proof.Machine

/-- A row of TX.ADV answers a next state only on an initialised block, selected, with its enable set, and from its body. -/
theorem serveTx_eq_next {row : TxRow} {s t : State} {body : State → Res} (h : serveTx row s body = .next t) :
    s.ready = true ∧ s.txRow = row ∧ s.irqTxEn = true ∧ body ((s.enterHandler .txrdy).answer .none) = .next t := by
  obtain ⟨hr, h⟩ := whenReady_eq_next h
  obtain ⟨hg, h⟩ := whenSelected_eq_next h
  split at h
  · exact ⟨hr, by simpa using hg, ‹_›, h⟩
  · cases h

/-- A row of RX.BYTE answers a next state only on an initialised block, selected, and from its body. -/
theorem rxRowRun_eq_next {row : RxRow} {b : Byte} {s t : State} {body : State → Res}
    (h : rxRowRun row b s body = .next t) :
    s.ready = true ∧ s.rxRow b = row ∧ body (s.answer .none) = .next t := by
  obtain ⟨hr, h⟩ := whenReady_eq_next h
  obtain ⟨hg, h⟩ := whenSelected_eq_next h
  exact ⟨hr, by simpa using hg, h⟩

/-- A section answers its body's next state with both enables set. -/
theorem inSection_eq_next {s t : State} {body : State → Res} (h : inSection s body = .next t) :
    ∃ u, body (s.critEnter.answer .none) = .next u ∧ t = u.critLeave := by
  obtain ⟨u, hu, h⟩ := andThen_eq_next h
  cases h
  exact ⟨u, hu, rfl⟩

/-- The defensive release does nothing, or gives another packet of TX back to the store. -/
theorem State.releaseHeld_eq_next {s t : State} {p : Handle} (h : s.releaseHeld p = .next t) :
    (s.txPkt = none ∧ t = s) ∨
    ∃ q, s.txPkt = some q ∧ q ≠ p ∧ s.packets.ownerOf q = .tx ∧
      t = { s with packets := s.packets.release q, trace := s.trace ++ [.storeRet q], txPkt := none, txState := .idle } := by
  unfold State.releaseHeld at h
  split at h
  · cases h; exact .inl ⟨‹_›, rfl⟩
  · rename_i q hq
    split at h
    · cases h
    · obtain ⟨u, hu, h⟩ := andThen_eq_next h
      obtain ⟨ho, rfl⟩ := State.returnPacket_eq_next hu
      cases h
      exact .inr ⟨q, hq, ‹_›, ho.2, rfl⟩

/-- The drain loop over no byte. -/
@[simp] theorem drainLoop_zero (s : State) : drainLoop 0 s = .next s := rfl

/-- The drain loop over a waiting byte: read it, apply RX.BYTE, go on. -/
theorem drainLoop_succ {n : Nat} {s : State} {b : Byte} {l : List Byte} (h : s.chanRxbuf = b :: l) :
    drainLoop (n + 1) s = andThen (rxByte b (s.takeByte b l)) (drainLoop n) := by
  simp [drainLoop, h]

/-- What no row of RX.BYTE touches, and the result it leaves: the instance, TX, the channel, the enables, the outbound
queue and the program are as they were. -/
structure RxByteFrame (s t : State) : Prop where
  params : t.params = s.params
  initialised : t.initialised = s.initialised
  txState : t.txState = s.txState
  txPkt : t.txPkt = s.txPkt
  txOff : t.txOff = s.txOff
  txCsum : t.txCsum = s.txCsum
  chanOvr : t.chanOvr = s.chanOvr
  chanRxbuf : t.chanRxbuf = s.chanRxbuf
  txrdyPending : t.txrdyPending = s.txrdyPending
  rxrdyPending : t.rxrdyPending = s.rxrdyPending
  irqTxEn : t.irqTxEn = s.irqTxEn
  irqRxEn : t.irqRxEn = s.irqRxEn
  rxCallback : t.rxCallback = s.rxCallback
  txqCap : t.txqCap = s.txqCap
  txq : t.txq = s.txq
  rxqCap : t.rxqCap = s.rxqCap
  program : t.program = s.program
  result : t.result = .none

/-- RX.BYTE keeps to its frame, whatever row it selects. -/
theorem rxByte_frame {b : Byte} {s t : State} (h : rxByte b s = .next t) : RxByteFrame s t := by
  unfold rxByte at h
  split at h
  · obtain ⟨_, _, h⟩ := rxRowRun_eq_next h
    cases h; constructor <;> rfl
  · obtain ⟨_, _, h⟩ := rxRowRun_eq_next h; cases h; constructor <;> rfl
  · obtain ⟨_, _, h⟩ := rxRowRun_eq_next h
    split at h
    · cases h
      constructor <;>
        simp [State.requestPacket, State.spendAnswer, State.accRead, State.emit, State.answer] <;>
        (repeat' split) <;> rfl
    · cases h
  · obtain ⟨_, _, h⟩ := rxRowRun_eq_next h
    split at h
    · cases h
      constructor <;>
        simp [State.requestPacket, State.spendAnswer, State.accRead, State.emit, State.answer, State.raise, State.endReceive] <;>
        (repeat' split) <;> rfl
    · cases h
  · obtain ⟨_, _, h⟩ := rxRowRun_eq_next h; cases h
    constructor <;>
        simp [State.accRead, State.emit, State.answer, State.raise, State.seedCandidate, State.accSeed, State.setAcc] <;>
        (repeat' split) <;> rfl
  · obtain ⟨_, _, h⟩ := rxRowRun_eq_next h
    split at h
    · obtain ⟨u, hu, h⟩ := andThen_eq_next h
      obtain ⟨_, rfl⟩ := State.memWrite_eq_next hu
      cases h
      constructor <;> simp [State.accAdd, State.accRead, State.answer, State.setAcc] <;> (repeat' split) <;> rfl
    · cases h
  · obtain ⟨_, _, h⟩ := rxRowRun_eq_next h
    split at h
    · obtain ⟨u, hu, h⟩ := andThen_eq_next h
      obtain ⟨v, hv, h⟩ := andThen_eq_next h
      obtain ⟨_, _, _, rfl⟩ := State.runCallback_eq_next hu
      obtain ⟨_, rfl⟩ := State.transfer_eq_next hv
      cases h
      constructor <;>
        simp [State.tryAddTail, State.accRead, State.emit, State.answer, State.endReceive, State.setQueue] <;>
        (repeat' split) <;> rfl
    · cases h
  · obtain ⟨_, _, h⟩ := rxRowRun_eq_next h
    split at h
    · obtain ⟨u, hu, h⟩ := andThen_eq_next h
      obtain ⟨v, hv, h⟩ := andThen_eq_next h
      obtain ⟨_, _, _, rfl⟩ := State.runCallback_eq_next hu
      obtain ⟨_, rfl⟩ := State.returnPacket_eq_next hv
      cases h
      constructor <;>
        simp [State.tryAddTail, State.accRead, State.emit, State.answer, State.endReceive, State.setQueue, State.raise] <;>
        (repeat' split) <;> rfl
    · cases h
  · obtain ⟨_, _, h⟩ := rxRowRun_eq_next h
    split at h
    · obtain ⟨v, hv, h⟩ := andThen_eq_next h
      obtain ⟨_, rfl⟩ := State.returnPacket_eq_next hv
      cases h
      constructor <;>
        simp [State.accRead, State.emit, State.answer, State.endReceive, State.raise] <;>
        (repeat' split) <;> rfl
    · cases h

/-- TX.ADV runs the row the decoder names. -/
theorem txAdv_eq_exec (s : State) : txAdv s = exec (txInstr s) s := by
  unfold txAdv txInstr
  cases s.txRow <;> rfl

/-- RX.BYTE runs the row the decoder names. -/
theorem rxByte_eq_exec (b : Byte) (s : State) : rxByte b s = exec (rxInstr s b) s := by
  unfold rxByte rxInstr
  cases s.rxRow b <;> rfl

end Sys2Proof.Machine
end

