-- ==== Sys2Proof/Laws/PerInstr.lean ====
section
/-! SUPPORT. The per-instruction family RoundTrip: in every state that selects an operation, the call it encodes to decodes
to it. One lemma per constructor. -/

namespace Sys2Proof.Laws.RoundTrip

open Sys2Proof.Machine

/-- Decoding the encoding of an operation gives it back, in every state that selects it (R116). -/
def Statement (i : Instr) : Prop := ∀ s : State, RowSelected s i → decode s (encode i) = .ok i

theorem txAtEnd_iff (s : State) : s.txAtEnd = true ↔ TxAtLength s := by
  unfold State.txAtEnd TxAtLength
  cases s.txPkt <;> cases s.txOff <;> simp

theorem rxAtEnd_iff (s : State) : s.rxAtEnd = true ↔ RxAtLength s := by
  unfold State.rxAtEnd RxAtLength
  cases s.rxPkt <;> cases s.rxOff <;> simp

theorem pair_iff (s : State) (b size : Byte) (h : s.rxSize = some size) :
    (pairTest (s.accValue .rx) b && s.params.inBounds size) = true ↔ PairInBounds s b size := by
  simp only [PairInBounds, pairTest, Params.inBounds, Params.belowMax, Params.minFrameSize, framingBytes, h,
    Bool.and_eq_true, beq_iff_eq, true_and]
  exact and_congr_right fun _ => and_congr decide_eq_true_iff decide_eq_true_iff

theorem requestLength_eq (s : State) (size : Byte) : s.params.requestLength size = requestLengthOf s size := rfl

theorem csumSeed (a : Acc) (b : Byte) : Statement (.csumSeed a b) := fun _ _ => rfl

theorem csumAcc (a : Acc) (b : Byte) : Statement (.csumAcc a b) := fun _ _ => rfl

theorem csumCompl (a : Acc) : Statement (.csumCompl a) := fun _ _ => rfl

theorem csumPair (a : Acc) (b : Byte) : Statement (.csumPair a b) := fun _ _ => rfl

theorem csumMatch (a : Acc) (b : Byte) : Statement (.csumMatch a b) := fun _ _ => rfl

theorem txSubmitReject (p : Option Handle) : Statement (.txSubmitReject p) := by
  intro s h
  have hr : s.submitRow p ≠ .accept := by
    intro hc
    unfold State.submitRow at hc
    rcases h with h | rfl | ⟨h, n, rfl, hn, hle⟩
    · simp [h] at hc
    · split at hc <;> cases hc
    · split at hc
      · cases hc
      · simp [hn, hle] at hc
  have : submitInstr s p = .txSubmitReject p := by
    unfold submitInstr
    split
    · rename_i hs; exact absurd hs hr
    · rfl
  simp [decode, encode, noByte, this]

theorem txSubmitAccept (p : Handle) : Statement (.txSubmitAccept p) := by
  rintro s ⟨h, hn⟩
  have hr : s.submitRow (some p) = .accept := by
    simp only [State.submitRow, h, ne_eq, not_true_eq_false, if_false]
    cases hl : s.packets.lenOf p with
    | none => rfl
    | some n => simp [Nat.not_le.2 (hn n hl)]
  simp [decode, encode, noByte, submitInstr, hr]

theorem txAdvIdle : Statement .txAdvIdle := fun s h => by simp [decode, encode, noByte, txInstr, State.txRow, show s.txState = .idle from h]

theorem txAdvSizecheck : Statement .txAdvSizecheck := fun s h => by
  simp [decode, encode, noByte, txInstr, State.txRow, show s.txState = .sendingSize from h]

theorem txAdvBody : Statement .txAdvBody := by
  rintro s ⟨h, hn⟩
  have : s.txAtEnd = false := by simpa [← txAtEnd_iff] using hn
  simp [decode, encode, noByte, txInstr, State.txRow, h, this]

theorem txAdvTrailer : Statement .txAdvTrailer := by
  rintro s ⟨h, hn⟩
  simp [decode, encode, noByte, txInstr, State.txRow, h, (txAtEnd_iff s).2 hn]

theorem rxIdleAccept (b : Byte) : Statement (.rxIdleAccept b) := by
  rintro s ⟨h, hb⟩
  simp [decode, encode, oneByte, rxInstr, State.rxRow, h, Params.belowMax, hb]

theorem rxIdleDiscard (b : Byte) : Statement (.rxIdleDiscard b) := by
  rintro s ⟨h, hb⟩
  simp [decode, encode, oneByte, rxInstr, State.rxRow, h, Params.belowMax, Nat.not_lt.2 hb]

theorem rxAwaitValid (b : Byte) : Statement (.rxAwaitValid b) := by
  rintro s ⟨h, size, hp, ha⟩
  obtain ⟨a, ha⟩ := Option.ne_none_iff_exists'.1 ha
  simp only [decode, encode, oneByte, rxInstr, State.rxRow, h, hp.1, (pair_iff s b size hp.1).2 hp, if_true,
    requestLength_eq, ha]

theorem rxAwaitNobuf (b : Byte) : Statement (.rxAwaitNobuf b) := by
  rintro s ⟨h, size, hp, ha⟩
  simp only [decode, encode, oneByte, rxInstr, State.rxRow, h, hp.1, (pair_iff s b size hp.1).2 hp, if_true,
    requestLength_eq, ha]

theorem rxAwaitResync (b : Byte) : Statement (.rxAwaitResync b) := by
  rintro s ⟨h, hn⟩
  cases hs : s.rxSize with
  | none => simp [decode, encode, oneByte, rxInstr, State.rxRow, h, hs]
  | some size =>
    have : (pairTest (s.accValue .rx) b && s.params.inBounds size) = false :=
      Bool.eq_false_iff.2 fun hc => hn ⟨size, (pair_iff s b size hs).1 hc⟩
    simp [decode, encode, oneByte, rxInstr, State.rxRow, h, hs, this]

theorem rxBodyStore (b : Byte) : Statement (.rxBodyStore b) := by
  rintro s ⟨h, hn⟩
  have : s.rxAtEnd = false := by simpa [← rxAtEnd_iff] using hn
  simp [decode, encode, oneByte, rxInstr, State.rxRow, h, this]

theorem rxBodyGood (b : Byte) : Statement (.rxBodyGood b) := by
  rintro s ⟨h, hn, rfl, hq⟩
  simp [decode, encode, oneByte, rxInstr, State.rxRow, h, (rxAtEnd_iff s).2 hn, State.hasRoom, State.queue,
    State.queueCap, hq]

theorem rxBodyGoodQfull (b : Byte) : Statement (.rxBodyGoodQfull b) := by
  rintro s ⟨h, hn, rfl, hq⟩
  simp [decode, encode, oneByte, rxInstr, State.rxRow, h, (rxAtEnd_iff s).2 hn, State.hasRoom, State.queue,
    State.queueCap, hq]

theorem rxBodyBad (b : Byte) : Statement (.rxBodyBad b) := by
  rintro s ⟨h, hn, hb⟩
  simp [decode, encode, oneByte, rxInstr, State.rxRow, h, (rxAtEnd_iff s).2 hn, hb]

theorem rxDrain : Statement .rxDrain := fun _ _ => rfl

theorem rxOvrClear : Statement .rxOvrClear := fun s h => by
  simp [decode, encode, noByte, show s.chanOvr = true from h]

theorem sysInit (n : Nat) (m : Nat) (cb : Callback) : Statement (.sysInit n m cb) := fun s h => by
  simp [decode, encode, noByte, show s.initialised = false from h]

theorem sysCritEnter : Statement .sysCritEnter := fun _ _ => rfl

theorem sysCritLeave : Statement .sysCritLeave := fun _ _ => rfl

theorem fgSend (p : Handle) : Statement (.fgSend p) := fun _ _ => rfl

theorem fgProcess : Statement .fgProcess := fun _ _ => rfl

theorem fgRecv : Statement .fgRecv := fun _ _ => rfl

theorem fgQuery (q : QName) (f : QueryFn) : Statement (.fgQuery q f) := fun _ _ => rfl

theorem storeRequest (c : Ctx) (d : Nat) : Statement (.storeRequest c d) := fun _ h => by simp [decode, encode, noByte, show c ≠ .txi from h]

theorem storeReturn (c : Ctx) (p : Handle) : Statement (.storeReturn c p) := fun _ _ => rfl

theorem qAddtail (q : QName) (p : Handle) : Statement (.qAddtail q p) := fun _ _ => rfl

theorem qRemhead (q : QName) : Statement (.qRemhead q) := fun _ _ => rfl

theorem qRemtail (q : QName) : Statement (.qRemtail q) := fun _ _ => rfl

theorem qIsempty (q : QName) : Statement (.qIsempty q) := fun _ _ => rfl

theorem qIsfull (q : QName) : Statement (.qIsfull q) := fun _ _ => rfl

theorem qSize (q : QName) : Statement (.qSize q) := fun _ _ => rfl

theorem chWrite (b : Byte) : Statement (.chWrite b) := fun _ _ => rfl

theorem chAvail : Statement .chAvail := fun _ _ => rfl

theorem chRead : Statement .chRead := fun _ _ => rfl

theorem chOvrclr : Statement .chOvrclr := fun _ _ => rfl

theorem chIrqen (src : Source) (on : Bool) : Statement (.chIrqen src on) := fun _ _ => rfl

theorem envRxbyte (b : Byte) : Statement (.envRxbyte b) := fun _ _ => rfl

theorem envRxlose : Statement .envRxlose := fun _ _ => rfl

theorem envTxrdy : Statement .envTxrdy := fun _ _ => rfl

theorem envRxrdy : Statement .envRxrdy := fun _ _ => rfl

end Sys2Proof.Laws.RoundTrip
end

