-- ==== Sys2Proof/Tests/Slice0.lean ====
section
/-! SUPPORT. Tests: ill-formed operations refused, every constructor's decoding from a call written out from the operation
map R115, single steps with the results of `spec/95_test_vectors.md`, and a witness for the hypotheses of every obligation
that has any. -/

namespace Sys2Proof.Tests

open Sys2Proof.Machine

/-! ### Small states (parameters 200 and 1, as in the vectors) -/

/-- The packet of vector S1: payload 41 42. -/
def full (o : Owner) : Packet := ⟨o, 2, [(0, 0x41#8), (1, 0x42#8)]⟩

/-- An initialised block that holds these packets and whose store will answer handle 7. -/
def holding (m : Memory) : State := { State.reset with packets := m, storeInput := [some ⟨7⟩] }

/-- The foreground holds packet 1. -/
def idle : State := holding [(1, full .fg)]

/-- Packet 1 waits in the outbound queue. -/
def queued : State := { holding [(1, full .txq)] with txq := [⟨1⟩] }

/-- TX has sent Size of packet 1. -/
def sentSize : State :=
  { holding [(1, full .tx)] with txState := .sendingSize, txPkt := some ⟨1⟩, txCsum := some 0x05#8 }

/-- TX is in the body of packet 1. -/
def inBody (o : Nat) (c : Byte) : State :=
  { holding [(1, full .tx)] with
    txState := .sendingBody, txPkt := some ⟨1⟩, txOff := some o, txCsum := some c }

/-- An idle TX that still marks packet 2 as held, the foreground holding packet 1. -/
def dangling : State := { holding [(1, full .fg), (2, full .tx)] with txPkt := some ⟨2⟩ }

/-- RX holds a candidate Size. -/
def await (b : Byte) : State := { idle with rxState := .awaitSizecheck, rxSize := some b, rxCsum := some b }

/-- RX is in the body of packet 3, of length 2. -/
def receiving (o : Nat) (c : Byte) (cells : List Host.Cell) : State :=
  { holding [(3, ⟨.rx, 2, cells⟩)] with
    rxState := .receivingBody, rxPkt := some ⟨3⟩, rxOff := some o, rxCsum := some c, rxSize := some 0x05#8 }

/-- The last byte of packet 3 is to come. -/
def lastByte : State := receiving 2 0x82#8 [(0, 0x41#8), (1, 0x42#8)]

/-- The same with no room in the inbound queue. -/
def lastByteFull : State := { lastByte with rxqCap := 0 }

/-- TX in the body, RX with a candidate, the byte that completes its pair waiting, and an overrun. -/
def busy : State :=
  { inBody 1 0x40#8 with
    rxState := .awaitSizecheck, rxSize := some 0x05#8, rxCsum := some 0x05#8, chanRxbuf := [0xFA#8], chanOvr := true }

/-- The next state, if there is one. -/
def after (r : Res) : Option State :=
  match r with
  | .next t => some t
  | _ => none

/-- The fields of the next state a test looks at. -/
def seen {α : Type} (r : Res) (f : State → α) : Option α := (after r).map f

/-! ### Well-formedness refuses -/

/-- R182, R183, R184, R115: each check refuses an operation that no state of the instance selects. -/
theorem test_wf_refuses :
    (Instr.rxIdleAccept 0xC8#8).wf ⟨200, 1⟩ = false ∧ (Instr.rxIdleDiscard 0xC7#8).wf ⟨200, 1⟩ = false ∧
    (Instr.rxAwaitValid 0xFC#8).wf ⟨200, 1⟩ = false ∧ (Instr.rxAwaitNobuf 0x37#8).wf ⟨200, 1⟩ = false ∧
    (Instr.storeRequest .txi 0).wf ⟨200, 1⟩ = false := by decide

theorem test_wf_accepts :
    (Instr.rxIdleAccept 0xC7#8).wf ⟨200, 1⟩ = true ∧ (Instr.rxIdleDiscard 0xC8#8).wf ⟨200, 1⟩ = true ∧
    (Instr.rxAwaitValid 0xFB#8).wf ⟨200, 1⟩ = true ∧ (Instr.rxAwaitNobuf 0x38#8).wf ⟨200, 1⟩ = true ∧
    (Instr.storeRequest .rxi 0).wf ⟨200, 1⟩ = true := by decide

/-! ### Decoding: a call written out for every constructor -/

/-- R131 to R135: the byte of the accumulator family. -/
theorem test_decode_csum :
    decode idle ⟨.csumSeed .tx, [0b00000101#8]⟩ = .ok (.csumSeed .tx 0x05#8) ∧
    decode idle ⟨.csumAcc .rx, [0b11111010#8]⟩ = .ok (.csumAcc .rx 0xFA#8) ∧
    decode idle ⟨.csumCompl .tx, []⟩ = .ok (.csumCompl .tx) ∧
    decode idle ⟨.csumPair .rx, [0b01111111#8]⟩ = .ok (.csumPair .rx 0x7F#8) ∧
    decode idle ⟨.csumMatch .rx, [0b10000010#8]⟩ = .ok (.csumMatch .rx 0x82#8) := by decide

/-- R151, R152: TX.SUBMIT by state, handle and length. -/
theorem test_decode_submit :
    decode idle ⟨.txSubmit (some ⟨1⟩), []⟩ = .ok (.txSubmitAccept ⟨1⟩) ∧
    decode idle ⟨.txSubmit none, []⟩ = .ok (.txSubmitReject none) ∧
    decode sentSize ⟨.txSubmit (some ⟨1⟩), []⟩ = .ok (.txSubmitReject (some ⟨1⟩)) ∧
    decode (holding [(1, ⟨.fg, 199, []⟩)]) ⟨.txSubmit (some ⟨1⟩), []⟩ = .ok (.txSubmitAccept ⟨1⟩) ∧
    decode (holding [(1, ⟨.fg, 200, []⟩)]) ⟨.txSubmit (some ⟨1⟩), []⟩ = .ok (.txSubmitReject (some ⟨1⟩)) := by decide

/-- R154: TX.ADV by state and offset. -/
theorem test_decode_advance :
    decode idle ⟨.txAdv, []⟩ = .ok .txAdvIdle ∧ decode sentSize ⟨.txAdv, []⟩ = .ok .txAdvSizecheck ∧
    decode (inBody 1 0x40#8) ⟨.txAdv, []⟩ = .ok .txAdvBody ∧
    decode (inBody 2 0x82#8) ⟨.txAdv, []⟩ = .ok .txAdvTrailer := by decide

/-- R182 to R191: RX.BYTE by state, byte and the collaborators' answers. -/
theorem test_decode_receive :
    decode idle ⟨.rxByte, [0b11000111#8]⟩ = .ok (.rxIdleAccept 0xC7#8) ∧
    decode idle ⟨.rxByte, [0b11001000#8]⟩ = .ok (.rxIdleDiscard 0xC8#8) ∧
    decode (await 0x05#8) ⟨.rxByte, [0b11111010#8]⟩ = .ok (.rxAwaitValid 0xFA#8) ∧
    decode { await 0x05#8 with storeInput := [none] } ⟨.rxByte, [0b11111010#8]⟩ = .ok (.rxAwaitNobuf 0xFA#8) ∧
    decode (await 0x05#8) ⟨.rxByte, [0b11111011#8]⟩ = .ok (.rxAwaitResync 0xFB#8) ∧
    decode (await 0x03#8) ⟨.rxByte, [0b11111100#8]⟩ = .ok (.rxAwaitResync 0xFC#8) ∧
    decode (await 0xC8#8) ⟨.rxByte, [0b00110111#8]⟩ = .ok (.rxAwaitResync 0x37#8) ∧
    decode (receiving 1 0x40#8 [(0, 0x41#8)]) ⟨.rxByte, [0b01000010#8]⟩ = .ok (.rxBodyStore 0x42#8) ∧
    decode lastByte ⟨.rxByte, [0b10000010#8]⟩ = .ok (.rxBodyGood 0x82#8) ∧
    decode lastByteFull ⟨.rxByte, [0b10000010#8]⟩ = .ok (.rxBodyGoodQfull 0x82#8) ∧
    decode lastByte ⟨.rxByte, [0b10000011#8]⟩ = .ok (.rxBodyBad 0x83#8) := by decide

/-- R192, R193, R220 to R226. -/
theorem test_decode_system :
    decode idle ⟨.rxDrain, []⟩ = .ok .rxDrain ∧ decode busy ⟨.rxOvrClear, []⟩ = .ok .rxOvrClear ∧
    decode State.powerOn ⟨.sysInit 4 5 ⟨6⟩, []⟩ = .ok (.sysInit 4 5 ⟨6⟩) ∧
    decode idle ⟨.sysCritEnter, []⟩ = .ok .sysCritEnter ∧ decode idle ⟨.sysCritLeave, []⟩ = .ok .sysCritLeave ∧
    decode idle ⟨.fgSend ⟨1⟩, []⟩ = .ok (.fgSend ⟨1⟩) ∧ decode idle ⟨.fgProcess, []⟩ = .ok .fgProcess ∧
    decode idle ⟨.fgRecv, []⟩ = .ok .fgRecv ∧
    decode idle ⟨.fgQuery .rxq .size, []⟩ = .ok (.fgQuery .rxq .size) := by decide

/-- R64, R65, R67 to R77. -/
theorem test_decode_collaborators :
    decode idle ⟨.storeRequest .fg 1, []⟩ = .ok (.storeRequest .fg 1) ∧
    decode idle ⟨.storeReturn .rxi ⟨1⟩, []⟩ = .ok (.storeReturn .rxi ⟨1⟩) ∧
    decode idle ⟨.qAddtail .txq ⟨1⟩, []⟩ = .ok (.qAddtail .txq ⟨1⟩) ∧
    decode idle ⟨.qRemhead .txq, []⟩ = .ok (.qRemhead .txq) ∧ decode idle ⟨.qRemtail .rxq, []⟩ = .ok (.qRemtail .rxq) ∧
    decode idle ⟨.qIsempty .rxq, []⟩ = .ok (.qIsempty .rxq) ∧ decode idle ⟨.qIsfull .txq, []⟩ = .ok (.qIsfull .txq) ∧
    decode idle ⟨.qSize .txq, []⟩ = .ok (.qSize .txq) ∧
    decode idle ⟨.chWrite, [0b00000101#8]⟩ = .ok (.chWrite 0x05#8) ∧ decode idle ⟨.chAvail, []⟩ = .ok .chAvail ∧
    decode idle ⟨.chRead, []⟩ = .ok .chRead ∧ decode idle ⟨.chOvrclr, []⟩ = .ok .chOvrclr ∧
    decode idle ⟨.chIrqen .rxrdy false, []⟩ = .ok (.chIrqen .rxrdy false) := by decide

/-- R229 to R232. -/
theorem test_decode_environment :
    decode idle ⟨.envRxbyte, [0b11111010#8]⟩ = .ok (.envRxbyte 0xFA#8) ∧ decode idle ⟨.envRxlose, []⟩ = .ok .envRxlose ∧
    decode idle ⟨.envTxrdy, []⟩ = .ok .envTxrdy ∧ decode idle ⟨.envRxrdy, []⟩ = .ok .envRxrdy := by decide

theorem test_decode_rejects :
    decode idle ⟨.rxByte, []⟩ = .error .missingByte ∧ decode idle ⟨.rxByte, [0x05#8, 0xFA#8]⟩ = .error .extraBytes ∧
    decode idle ⟨.fgProcess, [0x00#8]⟩ = .error .extraBytes ∧
    decode idle ⟨.storeRequest .txi 1, []⟩ = .error .notACaller ∧
    decode idle ⟨.rxOvrClear, []⟩ = .error .noRow ∧ decode idle ⟨.sysInit 4 5 ⟨6⟩, []⟩ = .error .noRow := by decide

/-- R116 (log 19): the word 0xFF is `rx_csum XOR b` of a matching pair, any other byte is not one. -/
theorem test_table_word :
    decodeTableWord 8 0xFF = some (.rxAwaitValid 0xFB#8) ∧ decodeTableWord 8 0x00 = some (.rxAwaitResync 0x04#8) ∧
    decodeTableWord 0 0 = none := by decide

/-- The very next step runs the operation of the word (log 19). -/
theorem test_with_fetch_word :
    seen (step (State.reset.withFetchWord 8 0xFF)) (fun t => (t.rxState, t.rxOff, t.rxCsum)) =
      some (.receivingBody, some 0, some 0xFF#8) := by decide

/-- Vectors V-EN-01, V-EN-03, V-EN-04, V-EN-05. -/
theorem test_frame_vectors :
    frame [] = [0x03#8, 0xFC#8, 0xFF#8] ∧ frame [0x01#8] = [0x04#8, 0xFB#8, 0x01#8, 0x00#8] ∧
    frame [0x41#8, 0x42#8] = [0x05#8, 0xFA#8, 0x41#8, 0x42#8, 0x82#8] ∧
    frame [0xFF#8, 0xFF#8, 0xFF#8] = [0x06#8, 0xF9#8, 0xFF#8, 0xFF#8, 0xFF#8, 0xFC#8] := by decide

/-- R102, R103, R105, R107: a frame is read back, and each field is checked. -/
theorem test_frame_reader :
    parseFrame [0x05#8, 0xFA#8, 0x41#8, 0x42#8, 0x82#8, 0x04#8] = .ok ([0x41#8, 0x42#8], [0x04#8]) ∧
    parseFrame [0x05#8, 0xFB#8, 0x41#8, 0x42#8, 0x82#8] = .error .badSizeCheck ∧
    parseFrame [0x02#8, 0xFD#8, 0xFF#8] = .error .badSize ∧
    parseFrame [0x05#8, 0xFA#8, 0x41#8, 0x42#8, 0x83#8] = .error .badChecksum ∧
    parseFrame [0x05#8, 0xFA#8, 0x41#8, 0x42#8] = .error .truncated := by decide

/-! ### Single steps, with the results of the vectors -/

/-- V-CS-01. -/
theorem test_csum_seed : seen (exec (.csumSeed .tx 0x05#8) sentSize) (·.txCsum) = some (some 0x05#8) := by decide
theorem test_csum_acc : seen (exec (.csumAcc .tx 0xFA#8) sentSize) (·.txCsum) = some (some 0xFF#8) := by decide

/-- V-CS-02: the carry is dropped. -/
theorem test_csum_acc_wraps : seen (exec (.csumAcc .tx 0x41#8) (inBody 0 0xFF#8)) (·.txCsum) = some (some 0x40#8) := by
  decide

/-- V-CS-03. -/
theorem test_csum_compl : seen (exec (.csumCompl .rx) (await 0xC7#8)) (·.result) = some (.byte 0x38#8) := by decide

/-- V-CS-04. -/
theorem test_csum_pair :
    seen (exec (.csumPair .rx 0x7F#8) (await 0x80#8)) (·.result) = some (.bit true) ∧
    seen (exec (.csumPair .rx 0x80#8) (await 0x80#8)) (·.result) = some (.bit false) := by decide

/-- V-CS-05. -/
theorem test_csum_match :
    seen (exec (.csumMatch .rx 0x82#8) lastByte) (·.result) = some (.bit true) ∧
    seen (exec (.csumMatch .rx 0x02#8) lastByte) (·.result) = some (.bit false) := by decide

/-- V-TX-01, first line. -/
theorem test_submit_accept :
    seen (exec (.txSubmitAccept ⟨1⟩) idle) (fun t => (t.txState, t.txPkt, t.txOff)) =
      some (.sendingSize, some ⟨1⟩, none) ∧
    seen (exec (.txSubmitAccept ⟨1⟩) idle) (fun t => (t.txCsum, t.wireOut)) = some (some 0x05#8, [0x05#8]) := by decide

/-- V-TX-06: the busy cause is named before the null one. -/
theorem test_submit_reject :
    seen (exec (.txSubmitReject none) (inBody 0 0xFF#8)) (fun t => (t.trace, t.result)) =
      some ([.outcome .submitBusy], .bit false) := by decide

/-- V-TX-04. -/
theorem test_submit_oversize :
    seen (exec (.txSubmitReject (some ⟨1⟩)) (holding [(1, ⟨.fg, 200, []⟩)])) (·.trace) =
      some [.outcome .submitOversize] := by decide

/-- V-TX-07. -/
theorem test_adv_idle : seen (exec .txAdvIdle idle) (fun t => (t.txState, t.wireOut)) = some (.idle, []) := by decide

/-- V-TX-01, second line. -/
theorem test_adv_sizecheck :
    seen (exec .txAdvSizecheck sentSize) (fun t => (t.txState, t.txOff, t.txCsum, t.wireOut)) =
      some (.sendingBody, some 0, some 0xFF#8, [0xFA#8]) := by decide

/-- V-TX-01, fourth line. -/
theorem test_adv_body :
    seen (exec .txAdvBody (inBody 1 0x40#8)) (fun t => (t.txOff, t.txCsum, t.wireOut)) =
      some (some 2, some 0x82#8, [0x42#8]) := by decide

/-- V-TX-01, fifth line. -/
theorem test_adv_trailer :
    seen (exec .txAdvTrailer (inBody 2 0x82#8)) (fun t => (t.txState, t.txPkt)) = some (.idle, none) ∧
    seen (exec .txAdvTrailer (inBody 2 0x82#8)) (fun t => (t.trace, t.packets)) =
      some ([.wireOut 0x82#8, .storeRet ⟨1⟩], []) := by decide

/-- V-RX-01, first byte. -/
theorem test_rx_accept :
    seen (exec (.rxIdleAccept 0x05#8) idle) (fun t => (t.rxState, t.rxSize, t.rxCsum)) =
      some (.awaitSizecheck, some 0x05#8, some 0x05#8) := by decide

/-- V-RX-02. -/
theorem test_rx_discard :
    seen (exec (.rxIdleDiscard 0xC8#8) idle) (fun t => (t.rxState, t.trace)) = some (.idle, [.outcome .framing]) := by
  decide

/-- V-RX-01, second byte: request 1, length 2. -/
theorem test_rx_valid :
    seen (exec (.rxAwaitValid 0xFA#8) (await 0x05#8)) (fun t => (t.rxState, t.rxOff, t.rxCsum, t.trace)) =
      some (.receivingBody, some 0, some 0xFF#8, [.storeReq 1 (some ⟨7⟩)]) ∧
    seen (exec (.rxAwaitValid 0xFA#8) (await 0x05#8)) (fun t => t.packets.lenOf ⟨7⟩) = some (some 2) := by decide

/-- V-RX-07. -/
theorem test_rx_nobuf :
    seen (exec (.rxAwaitNobuf 0xFA#8) { await 0x05#8 with storeInput := [none] })
      (fun t => (t.rxState, t.rxPkt, t.trace)) =
      some (.idle, none, [.storeReq 1 none, .outcome (.nobuf 0x05#8)]) := by decide

/-- V-RX-11: a candidate out of bounds is replaced by its own complement. -/
theorem test_rx_resync :
    seen (exec (.rxAwaitResync 0x37#8) (await 0xC8#8)) (fun t => (t.rxState, t.rxSize, t.rxCsum)) =
      some (.awaitSizecheck, some 0x37#8, some 0x37#8) := by decide

/-- V-RX-01, fourth byte. -/
theorem test_rx_store :
    seen (exec (.rxBodyStore 0x42#8) (receiving 1 0x40#8 [(0, 0x41#8)]))
      (fun t => (t.rxOff, t.rxCsum, t.packets.payload ⟨3⟩)) =
      some (some 2, some 0x82#8, some [0x41#8, 0x42#8]) := by decide

/-- V-RX-01, last byte. -/
theorem test_rx_good :
    seen (exec (.rxBodyGood 0x82#8) lastByte) (fun t => (t.rxState, t.rxq, t.trace)) =
      some (.idle, [⟨3⟩], [.callback ⟨0⟩ ⟨3⟩ [0x41#8, 0x42#8], .qAdd .rxq ⟨3⟩ true]) := by decide

/-- V-RX-08. -/
theorem test_rx_good_qfull :
    seen (exec (.rxBodyGoodQfull 0x82#8) lastByteFull) (fun t => (t.rxq, t.packets, t.trace)) =
      some ([], [], [.callback ⟨0⟩ ⟨3⟩ [0x41#8, 0x42#8], .qAdd .rxq ⟨3⟩ false, .outcome .qfull, .storeRet ⟨3⟩]) := by
  decide

/-- V-RX-13. -/
theorem test_rx_bad :
    seen (exec (.rxBodyBad 0x83#8) lastByte) (fun t => (t.rxState, t.packets, t.trace)) =
      some (.idle, [], [.outcome (.checksum 0x83#8 0x82#8), .storeRet ⟨3⟩]) := by decide

/-- R192's example, from its second byte on, with an overrun. -/
theorem test_drain :
    seen (exec .rxDrain { await 0x05#8 with chanRxbuf := [0xFA#8, 0x41#8, 0x42#8, 0x82#8], chanOvr := true })
      (fun t => (t.rxState, t.rxq, t.chanRxbuf, t.chanOvr)) = some (.idle, [⟨7⟩], [], false) := by decide

/-- V-RX-20. -/
theorem test_ovr_clear :
    seen (exec .rxOvrClear { receiving 1 0x40#8 [] with chanOvr := true }) (fun t => (t.chanOvr, t.rxOff, t.trace)) =
      some (false, some 1, [.ovrClear]) := by decide

/-- R46, R220: SYS.INIT(4, 4, cb) of the block as it is before it gives the reset state. -/
theorem test_init_is_reset : exec (.sysInit 4 4 ⟨0⟩) State.powerOn = .next State.reset := rfl

theorem test_crit :
    seen (exec .sysCritEnter idle) (fun t => (t.irqTxEn, t.irqRxEn)) = some (false, false) ∧
    seen (exec .sysCritLeave { idle with irqTxEn := false, irqRxEn := false }) (fun t => (t.irqTxEn, t.irqRxEn)) =
      some (true, true) := by decide

/-- R223's example. -/
theorem test_send :
    seen (exec (.fgSend ⟨1⟩) idle) (fun t => (t.txq, t.packets.ownerOf ⟨1⟩, t.result)) =
      some ([⟨1⟩], .txq, .bit true) := by decide

/-- R224's example. -/
theorem test_process :
    seen (exec .fgProcess queued) (fun t => (t.txq, t.txState, t.txPkt, t.wireOut)) =
      some ([], .sendingSize, some ⟨1⟩, [0x05#8]) := by decide

/-- R225's example. -/
theorem test_recv :
    seen (exec .fgRecv { holding [(1, full .rxq), (2, full .rxq)] with rxq := [⟨1⟩, ⟨2⟩] })
      (fun t => (t.rxq, t.packets.ownerOf ⟨1⟩, t.result)) = some ([⟨2⟩], .fg, .handle (some ⟨1⟩)) := by decide

/-- R226's example. -/
theorem test_query :
    seen (exec (.fgQuery .rxq .size) { idle with rxq := [⟨9⟩] }) (·.result) = some (.nat 1) ∧
    seen (exec (.fgQuery .rxq .isFull) { idle with rxq := [⟨9⟩] }) (·.result) = some (.bit false) := by decide

/-- R64: length d + HEADER_LENGTH, every cell unwritten. -/
theorem test_request :
    seen (exec (.storeRequest .fg 1) idle) (fun t => (t.packets.ownerOf ⟨7⟩, t.packets.lenOf ⟨7⟩, t.packets.cell ⟨7⟩ 0)) =
      some (.fg, some 2, none) := by decide

/-- R65. -/
theorem test_return :
    seen (exec (.storeReturn .fg ⟨1⟩) idle) (fun t => (t.packets, t.trace)) = some ([], [.storeRet ⟨1⟩]) ∧
    exec (.storeReturn .txi ⟨1⟩) idle = .fault .returnByNonOwner := by
  exact ⟨by decide, rfl⟩

/-- R67: with capacity 4 a fifth handle is not added. -/
theorem test_addtail :
    seen (exec (.qAddtail .txq ⟨5⟩) { idle with txq := [⟨1⟩, ⟨2⟩, ⟨3⟩, ⟨4⟩] }) (fun t => (t.txq, t.result)) =
      some ([⟨1⟩, ⟨2⟩, ⟨3⟩, ⟨4⟩], .bit false) ∧
    seen (exec (.qAddtail .txq ⟨5⟩) { idle with txq := [⟨1⟩, ⟨2⟩, ⟨3⟩] }) (fun t => (t.txq, t.result)) =
      some ([⟨1⟩, ⟨2⟩, ⟨3⟩, ⟨5⟩], .bit true) := by decide

/-- R68, R69: the two ends. -/
theorem test_remove :
    seen (exec (.qRemhead .rxq) { idle with rxq := [⟨1⟩, ⟨2⟩] }) (fun t => (t.rxq, t.result)) =
      some ([⟨2⟩], .handle (some ⟨1⟩)) ∧
    seen (exec (.qRemtail .rxq) { idle with rxq := [⟨1⟩, ⟨2⟩] }) (fun t => (t.rxq, t.result)) =
      some ([⟨1⟩], .handle (some ⟨2⟩)) := by decide

/-- R70, R71, R72. -/
theorem test_queue_queries :
    seen (exec (.qIsempty .txq) idle) (·.result) = some (.bit true) ∧
    seen (exec (.qIsfull .txq) { idle with txqCap := 0 }) (·.result) = some (.bit true) ∧
    seen (exec (.qSize .txq) queued) (·.result) = some (.nat 1) := by decide

/-- R73 to R77. -/
theorem test_channel :
    seen (exec (.chWrite 0x05#8) idle) (·.wireOut) = some [0x05#8] ∧
    seen (exec .chAvail { idle with chanRxbuf := [0x05#8] }) (·.result) = some (.bit true) ∧
    seen (exec .chRead { idle with chanRxbuf := [0x05#8, 0xFA#8] }) (fun t => (t.chanRxbuf, t.result)) =
      some ([0xFA#8], .byte 0x05#8) ∧
    seen (exec .chOvrclr { idle with chanOvr := true }) (·.chanOvr) = some false ∧
    seen (exec (.chIrqen .rxrdy false) idle) (fun t => (t.irqTxEn, t.irqRxEn)) = some (true, false) := by decide

/-- R229, R230. -/
theorem test_env_bytes :
    seen (exec (.envRxbyte 0x05#8) { idle with chanRxbuf := [0x01#8] }) (fun t => (t.chanRxbuf, t.rxrdyPending)) =
      some ([0x01#8, 0x05#8], true) ∧
    seen (exec .envRxlose idle) (fun t => (t.chanOvr, t.chanRxbuf)) = some (true, []) := by decide

/-- R231, R232: served while enabled, held while not. -/
theorem test_env_events :
    seen (exec .envTxrdy sentSize) (fun t => (t.txState, t.txrdyPending)) = some (.sendingBody, false) ∧
    seen (exec .envTxrdy { sentSize with irqTxEn := false }) (fun t => (t.txState, t.txrdyPending)) =
      some (.sendingSize, true) ∧
    seen (exec .envRxrdy { idle with chanRxbuf := [0x05#8] }) (fun t => (t.rxState, t.rxrdyPending)) =
      some (.awaitSizecheck, false) := by decide

/-! ### Witnesses: the invariants -/

theorem reset_mem_owner (p : Handle) : Memory.ownerOf State.reset.packets p = .store := rfl

theorem witness_inv_reset : Inv State.reset where
  ready := by decide
  memory := by decide
  txIdle := by decide
  txAbsent := by decide
  txSize := fun h => by cases h
  txBody := fun h => by cases h
  rxBodyPkt := by decide
  rxIdle := by decide
  rxAwait := fun h => by cases h
  rxBody := fun h => by cases h
  bounds := by decide
  ownedTx := fun p => by simp [reset_mem_owner]; exact fun h => by cases h
  ownedRx := fun p => by simp [reset_mem_owner]; exact fun h => by cases h
  ownedTxq := fun p => by simp [reset_mem_owner]; exact List.not_mem_nil
  ownedRxq := fun p => by simp [reset_mem_owner]; exact List.not_mem_nil
  once := by decide
  enables := by decide
  run := fun m h => by cases h

theorem busy_owner (p : Handle) : busy.packets.ownerOf p = if p = ⟨1⟩ then .tx else .store := by
  obtain ⟨n⟩ := p
  by_cases h : n = 1
  · subst h; rfl
  · have : ¬ 1 = n := fun c => h c.symm
    simp [busy, inBody, holding, Memory.ownerOf, lookup, full, h, this]

/-- A state in the middle of a frame on both sides meets the invariants. -/
theorem witness_inv_busy : Inv busy where
  ready := by decide
  memory := by decide
  txIdle := by decide
  txAbsent := by decide
  txSize := fun h => by cases h
  txBody := fun _ => ⟨⟨1⟩, 2, 1, [0x41#8], by decide⟩
  rxBodyPkt := by decide
  rxIdle := by decide
  rxAwait := fun _ => ⟨rfl, 0x05#8, rfl, rfl⟩
  rxBody := fun h => by cases h
  bounds := by decide
  ownedTx := fun p => by
    rw [busy_owner]
    by_cases h : p = ⟨1⟩
    · subst h; decide
    · simp [h, busy, inBody, Ne.symm h]
  ownedRx := fun p => by
    rw [busy_owner]
    by_cases h : p = ⟨1⟩ <;> simp [h, busy, inBody, holding, State.reset]
  ownedTxq := fun p => by
    rw [busy_owner]
    by_cases h : p = ⟨1⟩ <;> simp [h, busy, inBody, holding, State.reset]
  ownedRxq := fun p => by
    rw [busy_owner]
    by_cases h : p = ⟨1⟩ <;> simp [h, busy, inBody, holding, State.reset]
  once := by decide
  enables := by decide
  run := fun m h => by cases h

/-! ### Witnesses: the hypotheses of the obligations, clause by clause -/

theorem witness_InitPutsRegistersAtResetValues :
    State.powerOn.params.ok = true ∧ State.powerOn.initialised = false := by decide

theorem witness_OnlyInitRunsBeforeInitAndOnlyOnce :
    (∀ n m cb, Instr.fgProcess ≠ .sysInit n m cb) ∧ State.reset.params.ok = true ∧ State.reset.initialised = true :=
  ⟨fun _ _ _ => by simp, by decide, by decide⟩

theorem witness_ConfigurationIsFixedAfterInit : (∃ t, exec .txAdvBody (inBody 1 0x40#8) = .next t) ∧
    (inBody 1 0x40#8).initialised = true := ⟨⟨_, rfl⟩, by decide⟩

theorem witness_CsumSeedAndAccWriteTheAccumulator :
    busy.ready = true ∧ busy.txCsum = some 0x40#8 ∧ busy.rxCsum = some 0x05#8 := by decide

theorem witness_CsumTestsAnswerWithoutChange :
    busy.ready = true ∧ busy.acc .tx = some 0x40#8 ∧ busy.acc .rx = some 0x05#8 := by decide

theorem witness_AbsentAccumulatorReadsAsAFreeByte :
    idle.ready = true ∧ idle.acc .tx = none ∧ idle.acc .rx = none := by decide

theorem witness_RunningSumIsTheClosedForm :
    (List.replicate 252 0xFF#8).length ≤ 252 ∧ [0x41#8, 0x42#8].Perm [0x42#8, 0x41#8] ∧
    checksumOf ([0x41#8] ++ 0x42#8 :: []) = checksumOf ([0x41#8] ++ 0x42#8 :: []) :=
  ⟨Nat.le_of_eq List.length_replicate, by decide, rfl⟩

theorem witness_SubmitRejectChangesNothing :
    (sentSize.ready = true ∧ sentSize.txState ≠ .idle) ∧ (idle.ready = true ∧ idle.txState = .idle) ∧
    MaySubmit (holding [(1, ⟨.fg, 200, []⟩)]) ⟨1⟩ ∧
    (holding [(1, ⟨.fg, 200, []⟩)]).packets.lenOf ⟨1⟩ = some 200 ∧
    (holding [(1, ⟨.fg, 200, []⟩)]).params.maxFrameSize ≤ 200 :=
  ⟨by decide, by decide, .inl (by decide), by decide, by decide⟩

/-- The boundary length 199, of the foreground; and a packet off the queue with a dangling one held. -/
theorem witness_SubmitAcceptStartsAFrame :
    (MaySubmit (holding [(1, ⟨.fg, 199, []⟩)]) ⟨1⟩ ∧
      (holding [(1, ⟨.fg, 199, []⟩)]).packets.lenOf ⟨1⟩ = some 199 ∧
      199 < (holding [(1, ⟨.fg, 199, []⟩)]).params.maxFrameSize ∧ (holding [(1, ⟨.fg, 199, []⟩)]).txPkt = none) ∧
    (MaySubmit { dangling with packets := [(1, full .txq), (2, full .tx)] } ⟨1⟩ ∧ dangling.txState = .idle) ∧
    (MaySubmit dangling ⟨1⟩ ∧ dangling.ready = true ∧ dangling.packets.lenOf ⟨1⟩ = some 2 ∧
      dangling.txPkt = some ⟨2⟩ ∧ dangling.packets.ownerOf ⟨2⟩ = .tx) :=
  ⟨⟨.inl (by decide), by decide⟩, ⟨.inr (by decide), by decide⟩, ⟨.inl (by decide), by decide⟩⟩

theorem witness_SubmitOfAnotherOwnersPacketStops :
    (¬ MaySubmit queued ⟨1⟩ ∧ queued.ready = true ∧ queued.txState = .idle ∧ queued.packets.lenOf ⟨1⟩ = some 2) ∧
    (¬ MaySubmit (holding [(1, ⟨.rx, 200, []⟩)]) ⟨1⟩ ∧
      (holding [(1, ⟨.rx, 200, []⟩)]).packets.lenOf ⟨1⟩ = some 200) ∧
    (MaySubmit { dangling with txPkt := some ⟨1⟩ } ⟨1⟩ ∧ dangling.packets.lenOf ⟨1⟩ = some 2) :=
  ⟨⟨fun h => h.elim (by decide) (by decide), by decide⟩, ⟨fun h => h.elim (by decide) (by decide), by decide⟩,
    ⟨.inl (by decide), by decide⟩⟩

theorem witness_TxReadyWhileIdleDoesNothing :
    idle.ready = true ∧ idle.irqTxEn = true ∧ idle.txState = .idle := by decide

theorem witness_TxWritesSizeCheck :
    sentSize.ready = true ∧ sentSize.irqTxEn = true ∧ sentSize.txState = .sendingSize ∧
    sentSize.txCsum = some 0x05#8 := by decide

/-- The last payload byte; and a packet with nothing written. -/
theorem witness_TxWritesOnePayloadByte :
    (let s := inBody 1 0x40#8
     s.ready = true ∧ s.irqTxEn = true ∧ s.txState = .sendingBody ∧ s.txPkt = some ⟨1⟩ ∧ s.txOff = some 1 ∧
     s.packets.ownerOf ⟨1⟩ = .tx ∧ s.packets.lenOf ⟨1⟩ = some 2 ∧ s.txCsum = some 0x40#8 ∧
     s.packets.cell ⟨1⟩ 1 = some 0x42#8) ∧
    (let s := { inBody 1 0x40#8 with packets := [(1, ⟨.tx, 2, []⟩)] }
     s.packets.ownerOf ⟨1⟩ = .tx ∧ s.packets.lenOf ⟨1⟩ = some 2 ∧ s.packets.cell ⟨1⟩ 1 = none) := by decide

theorem witness_TxWritesTheTrailer :
    let s := inBody 2 0x82#8
    s.ready = true ∧ s.irqTxEn = true ∧ s.txState = .sendingBody ∧ s.txPkt = some ⟨1⟩ ∧ s.txOff = some 2 ∧
    s.txCsum = some 0x82#8 ∧ s.packets.ownerOf ⟨1⟩ = .tx ∧ s.packets.lenOf ⟨1⟩ = some 2 := by decide

/-- The four rows of TX that change the state complete in states of each kind. -/
theorem witness_TxTransitionsAreTheListedOnes :
    idle.initialised = true ∧ (∃ t, exec (.txSubmitAccept ⟨1⟩) idle = .next t) ∧
    (∃ t, exec .txAdvSizecheck sentSize = .next t) ∧ (∃ t, exec .txAdvBody (inBody 1 0x40#8) = .next t) ∧
    ∃ t, exec .txAdvTrailer (inBody 2 0x82#8) = .next t :=
  ⟨by decide, ⟨_, rfl⟩, ⟨_, rfl⟩, ⟨_, rfl⟩, ⟨_, rfl⟩⟩

theorem witness_TxFrameEmitsExactlyTheFrame :
    MaySubmit idle ⟨1⟩ ∧ idle.ready = true ∧ idle.irqTxEn = true ∧ idle.txState = .idle ∧ idle.txPkt = none ∧
    idle.packets.payload ⟨1⟩ = some [0x41#8, 0x42#8] ∧ [0x41#8, 0x42#8].length < idle.params.maxFrameSize :=
  ⟨.inl (by decide), by decide⟩

/-- Both sides of MAX_FRAME_SIZE = 200. -/
theorem witness_RxIdleTakesACandidateOrDropsTheByte :
    idle.ready = true ∧ idle.rxState = .idle ∧ (0xC7#8).toNat < idle.params.maxFrameSize ∧
    idle.params.maxFrameSize ≤ (0xC8#8).toNat := by decide

/-- The smallest Size in bounds, 4. -/
theorem witness_RxValidPairObtainsAPacket :
    let s := await 0x04#8
    s.ready = true ∧ s.rxState = .awaitSizecheck ∧ s.rxSize = some 0x04#8 ∧ s.rxCsum = some 0x04#8 ∧
    (0x04#8).toNat + (0xFB#8).toNat = 255 ∧ 3 + s.params.headerLength ≤ (0x04#8).toNat ∧
    (0x04#8).toNat < s.params.maxFrameSize ∧
    s.storeAnswer ((0x04#8).toNat - s.params.headerLength - 3) = some ⟨7⟩ := by decide

/-- The greatest Size in bounds, 199. -/
theorem witness_RxValidPairWithoutAPacketIsDropped :
    let s := { await 0xC7#8 with storeInput := [none] }
    s.ready = true ∧ s.rxState = .awaitSizecheck ∧ s.rxPkt = none ∧ s.rxOff = none ∧ s.rxSize = some 0xC7#8 ∧
    s.rxCsum = some 0xC7#8 ∧ (0xC7#8).toNat + (0x38#8).toNat = 255 ∧ 3 + s.params.headerLength ≤ (0xC7#8).toNat ∧
    (0xC7#8).toNat < s.params.maxFrameSize ∧
    s.storeAnswer ((0xC7#8).toNat - s.params.headerLength - 3) = none := by decide

/-- No pair; a pair below the bounds; a pair above them. -/
theorem witness_RxResyncTakesTheByteAsCandidate :
    ((await 0x10#8).ready = true ∧ (await 0x10#8).rxState = .awaitSizecheck ∧
      (await 0x10#8).rxSize = some 0x10#8 ∧ (await 0x10#8).rxCsum = some 0x10#8 ∧
      (0x10#8).toNat + (0x05#8).toNat ≠ 255) ∧
    ¬ (3 + (await 0x03#8).params.headerLength ≤ (0x03#8).toNat ∧ (0x03#8).toNat < (await 0x03#8).params.maxFrameSize) ∧
    ¬ (3 + (await 0xC8#8).params.headerLength ≤ (0xC8#8).toNat ∧ (0xC8#8).toNat < (await 0xC8#8).params.maxFrameSize) := by
  decide

theorem witness_RxStoresOnePayloadByte :
    let s := receiving 1 0x40#8 [(0, 0x41#8)]
    s.ready = true ∧ s.rxState = .receivingBody ∧ s.rxPkt = some ⟨3⟩ ∧ s.rxOff = some 1 ∧ s.rxCsum = some 0x40#8 ∧
    s.packets.ownerOf ⟨3⟩ = .rx ∧ s.packets.lenOf ⟨3⟩ = some 2 := by decide

theorem witness_RxGoodFrameIsCalledBackAndQueued :
    lastByte.ready = true ∧ lastByte.rxState = .receivingBody ∧ lastByte.rxPkt = some ⟨3⟩ ∧
    lastByte.rxOff = some 2 ∧ lastByte.packets.lenOf ⟨3⟩ = some 2 ∧ lastByte.rxCsum = some 0x82#8 ∧
    lastByte.packets.ownerOf ⟨3⟩ = .rx ∧ lastByte.packets.payload ⟨3⟩ = some [0x41#8, 0x42#8] ∧
    lastByte.rxq.length < lastByte.rxqCap := by decide

theorem witness_RxGoodFrameWithFullQueueIsReturned :
    lastByteFull.ready = true ∧ lastByteFull.rxState = .receivingBody ∧ lastByteFull.rxPkt = some ⟨3⟩ ∧
    lastByteFull.rxOff = some 2 ∧ lastByteFull.packets.lenOf ⟨3⟩ = some 2 ∧ lastByteFull.rxCsum = some 0x82#8 ∧
    lastByteFull.packets.ownerOf ⟨3⟩ = .rx ∧ lastByteFull.packets.payload ⟨3⟩ = some [0x41#8, 0x42#8] ∧
    lastByteFull.rxqCap ≤ lastByteFull.rxq.length := by decide

theorem witness_RxBadChecksumReturnsThePacket :
    lastByte.ready = true ∧ lastByte.rxState = .receivingBody ∧ lastByte.rxPkt = some ⟨3⟩ ∧
    lastByte.rxOff = some 2 ∧ lastByte.packets.lenOf ⟨3⟩ = some 2 ∧ lastByte.rxCsum = some 0x82#8 ∧
    (0x83#8 : Byte) ≠ 0x82#8 ∧ lastByte.packets.ownerOf ⟨3⟩ = .rx := by decide

theorem witness_RxTransitionsAreTheListedOnes :
    (isRxByteRow (.rxBodyStore 0x42#8) = true ∧
      ∃ t, exec (.rxBodyStore 0x42#8) (receiving 1 0x40#8 [(0, 0x41#8)]) = .next t) ∧
    (∃ t, exec (.rxIdleAccept 0x05#8) idle = .next t) ∧ (∃ t, exec (.rxBodyBad 0x83#8) lastByte = .next t) ∧
    isRxByteRow .fgProcess = false ∧ idle.initialised = true ∧ ∃ t, exec .fgProcess idle = .next t :=
  ⟨⟨rfl, _, rfl⟩, ⟨_, rfl⟩, ⟨_, rfl⟩, rfl, rfl, ⟨_, rfl⟩⟩

/-- NoByteStopsTheReceiver, DrainConsumesEveryByteAndClearsOverrun, EveryStepKeepsTheInvariants, and the third clauses of
TransmitReadyIsServedOrHeld and ReceiveReadyIsServedOrHeld. -/
theorem witness_of_the_invariants :
    Inv busy ∧ busy.irqRxEn = true ∧ busy.irqTxEn = true ∧ busy.packets.cell ⟨1⟩ 1 = some 0x42#8 ∧
    Inv State.reset ∧ (∃ t, step State.reset = .next t) :=
  ⟨witness_inv_busy, rfl, rfl, rfl, witness_inv_reset, ⟨_, rfl⟩⟩

/-- A byte that waits, and the row it selects once it is read. -/
theorem witness_DrainConsumesEveryByteAndClearsOverrun :
    (let s := { await 0x05#8 with chanRxbuf := [0xFA#8, 0x41#8] }
     s.ready = true ∧ s.irqRxEn = true ∧ s.chanRxbuf = 0xFA#8 :: [0x41#8] ∧
     decode (s.takeByte 0xFA#8 [0x41#8]) ⟨.rxByte, [0xFA#8]⟩ = .ok (.rxAwaitValid 0xFA#8)) := by decide

/-- An overrun with nothing waiting, and neither. -/
theorem witness_OverrunClearTouchesOnlyTheFlag :
    (let s := { idle with chanOvr := true }
     s.ready = true ∧ s.chanOvr = true ∧ s.irqRxEn = true ∧ s.chanRxbuf = []) ∧
    idle.chanOvr = false ∧ idle.irqRxEn = true ∧ idle.chanRxbuf = [] := by decide

theorem witness_DrainGroupingDoesNotMatter :
    idle.ready = true ∧ idle.irqRxEn = true ∧ idle.chanOvr = false ∧
    ∃ t, exec .rxDrain { idle with chanRxbuf := [0x05#8] } = .next t := ⟨rfl, rfl, rfl, _, rfl⟩

/-- The shortest payload the parameters let through, of length 1. -/
theorem witness_ReceiverDeliversExactlyTheFramesPayload :
    idle.ready = true ∧ idle.rxState = .idle ∧ idle.rxPkt = none ∧ idle.params.headerLength ≤ [0x41#8].length ∧
    [0x41#8].length + 4 ≤ idle.params.maxFrameSize ∧
    idle.storeAnswer ([0x41#8].length - idle.params.headerLength) = some ⟨7⟩ ∧ idle.rxq.length < idle.rxqCap := by
  decide

/-- One block that is both sender and receiver. -/
theorem witness_RoundTripDeliversTheSamePayload :
    MaySubmit idle ⟨1⟩ ∧ idle.ready = true ∧ idle.irqTxEn = true ∧ idle.txState = .idle ∧ idle.txPkt = none ∧
    idle.packets.payload ⟨1⟩ = some [0x41#8, 0x42#8] ∧ idle.rxState = .idle ∧ idle.rxPkt = none ∧
    idle.params.headerLength ≤ 2 ∧ 2 + 4 ≤ idle.params.maxFrameSize ∧
    idle.storeAnswer (2 - idle.params.headerLength) = some ⟨7⟩ ∧ idle.rxq.length < idle.rxqCap :=
  ⟨.inl (by decide), by decide⟩

/-- CriticalSectionSetsBothEnables, QueryAnswersAndChangesNothing, AddTailNeverExceedsTheCapacity (room in one queue, none in
the other) and BytesArriveOrAreLost. -/
theorem witness_of_a_ready_block :
    idle.ready = true ∧ idle.txq.length < idle.txqCap ∧
    ¬ { idle with rxqCap := 0 }.rxq.length < { idle with rxqCap := 0 }.rxqCap := by decide

theorem witness_NoHandlerRunsWhileDisabled :
    let s := { sentSize with irqTxEn := false, irqRxEn := false }
    s.ready = true ∧ s.irqTxEn = false ∧ s.irqRxEn = false ∧ decode s ⟨.txAdv, []⟩ = .ok .txAdvSizecheck := by decide

/-- One free place; none; another owner. -/
theorem witness_SendQueuesOrDeclines :
    (let s := { idle with txqCap := 1 }
     s.ready = true ∧ s.packets.ownerOf ⟨1⟩ = .fg ∧ s.txq.length < s.txqCap) ∧
    (let s := { idle with txqCap := 0 }
     s.packets.ownerOf ⟨1⟩ = .fg ∧ s.txqCap ≤ s.txq.length) ∧
    sentSize.packets.ownerOf ⟨1⟩ ≠ .fg := by decide

/-- TX busy; nothing queued; a packet that fits; one that does not. -/
theorem witness_ProcessSubmitsAtMostOnePacket :
    (sentSize.ready = true ∧ sentSize.txState ≠ .idle) ∧ (idle.txState = .idle ∧ idle.txq = []) ∧
    (queued.ready = true ∧ queued.txState = .idle ∧ queued.txq = [⟨1⟩] ∧ queued.packets.ownerOf ⟨1⟩ = .txq ∧
      queued.packets.lenOf ⟨1⟩ = some 2 ∧ queued.txPkt = none ∧ (⟨1⟩ : Handle) ∉ ([] : List Handle)) ∧
    (let s := { queued with packets := [(1, ⟨.txq, 200, []⟩)] }
     s.packets.ownerOf ⟨1⟩ = .txq ∧ s.packets.lenOf ⟨1⟩ = some 200 ∧ s.params.maxFrameSize ≤ 200) := by decide

theorem witness_RecvTakesTheOldestPacket :
    idle.rxq = [] ∧
    (let s := { holding [(1, full .rxq)] with rxq := [⟨1⟩] }
     s.ready = true ∧ s.rxq = [⟨1⟩] ∧ s.packets.ownerOf ⟨1⟩ = .rxq) := by decide

/-- The last cell; the first offset beyond; another owner. -/
theorem witness_ForegroundAccessesItsOwnCellsOnly :
    idle.ready = true ∧ idle.packets.ownerOf ⟨1⟩ = .fg ∧ idle.packets.lenOf ⟨1⟩ = some 2 ∧
    queued.packets.ownerOf ⟨1⟩ ≠ .fg := by decide

theorem witness_RequestPacketAnswersAFreshPacketOrFail :
    idle.ready = true ∧ idle.storeAnswer 0 = some ⟨7⟩ ∧ { idle with storeInput := [none] }.storeAnswer 0 = none := by
  decide

theorem witness_ReturnPacketNeedsTheOwner :
    idle.packets.ownerOf ⟨1⟩ = .fg ∧ lastByte.packets.ownerOf ⟨3⟩ = .rx ∧ sentSize.packets.ownerOf ⟨1⟩ = .tx ∧
    idle.packets.ownerOf ⟨1⟩ ≠ .tx ∧ idle.packets.ownerOf ⟨2⟩ ≠ .fg := by decide

theorem witness_QueuePrimitivesTakeTheEndsAndAnswer :
    queued.ready = true ∧ queued.txq = ⟨1⟩ :: [] ∧ queued.txq = [] ++ [⟨1⟩] ∧ queued.queue .rxq = [] ∧
    { idle with rxq := [⟨1⟩] }.rxq = [] ++ [⟨1⟩] := by decide

theorem witness_ChannelPrimitivesDoTheirOneThing :
    busy.ready = true ∧ busy.chanRxbuf = [0xFA#8] ∧ idle.chanRxbuf = [] := by decide

theorem witness_TransmitReadyIsServedOrHeld :
    { idle with irqTxEn := false }.irqTxEn = false ∧ sentSize.ready = true ∧ sentSize.irqTxEn = true ∧
    decode sentSize ⟨.txAdv, []⟩ = .ok .txAdvSizecheck := by decide

theorem witness_ReceiveReadyIsServedOrHeld :
    { idle with irqRxEn := false }.irqRxEn = false ∧ busy.ready = true ∧ busy.irqRxEn = true := by decide

theorem witness_TheTwoMachinesAreIndependent :
    (isTxRow .txAdvBody = true ∧ ∃ t, exec .txAdvBody busy = .next t) ∧
    isRxByteRow (.rxAwaitValid 0xFA#8) = true ∧ ∃ t, exec (.rxAwaitValid 0xFA#8) busy = .next t :=
  ⟨⟨rfl, _, rfl⟩, rfl, _, rfl⟩

theorem witness_HandlerOrderDoesNotMatter :
    Inv busy ∧ busy.irqTxEn = true ∧ busy.irqRxEn = true ∧ decode busy ⟨.txAdv, []⟩ = .ok .txAdvBody ∧
    Instr.txAdvBody ≠ .txAdvTrailer ∧ ∃ a, exec .txAdvBody busy = .next a :=
  ⟨witness_inv_busy, rfl, rfl, rfl, by decide, _, rfl⟩

theorem witness_UnselectedRowsDoNotRun :
    ¬ RowSelected idle .txAdvBody ∧ idle.ready = true ∧ isTxRow .txAdvBody = true ∧
    ¬ RowSelected idle (.rxBodyStore 0x00#8) ∧ isRxByteRow (.rxBodyStore 0x00#8) = true ∧ idle.chanOvr = false :=
  ⟨fun h => absurd h.1 (by decide), by decide, by decide, fun h => absurd h.1 (by decide), by decide, by decide⟩

theorem witness_FrameFormatRoundTrips :
    (List.replicate 252 0x00#8).length ≤ 252 ∧ parseFrame [0x03#8, 0xFC#8, 0xFF#8] = .ok ([], []) :=
  ⟨Nat.le_of_eq List.length_replicate, by decide⟩

theorem witness_StepRunsTheDecodedOperation :
    decode idle ⟨.fgProcess, []⟩ = .ok .fgProcess ∧ decode idle ⟨.rxByte, []⟩ = .error .missingByte := by decide

/-- No event; a transmit-ready one; a receive-ready one. -/
theorem witness_IdleMachineServesHeldEvents :
    idle.program = [] ∧ idle.serviceable .txrdy = false ∧ idle.serviceable .rxrdy = false ∧
    { idle with txrdyPending := true }.serviceable .txrdy = true ∧ decode idle ⟨.txAdv, []⟩ = .ok .txAdvIdle ∧
    { idle with rxrdyPending := true }.serviceable .rxrdy = true := by decide

theorem witness_InitEstablishesTheInvariants :
    State.powerOn.packets.wf = true ∧ (∀ p, State.powerOn.packets.ownerOf p = .store) ∧ State.powerOn.program = [] ∧
    ∃ t, exec (.sysInit 0 0 ⟨3⟩) State.powerOn = .next t := ⟨rfl, fun _ => rfl, rfl, _, rfl⟩

/-- A step that writes a cell of a canonical memory. -/
theorem witness_EveryStepKeepsTheMemoryCanonical :
    idle.packets.wf = true ∧ ∃ t, step { idle with program := [.write ⟨1⟩ 1 0x00#8] } = .next t := ⟨by decide, _, rfl⟩

/-- Queues exactly at their capacities. -/
theorem witness_NoQueueExceedsItsCapacity :
    let s := { queued with txqCap := 1, rxqCap := 0, program := [.call ⟨.qAddtail .txq ⟨2⟩, []⟩] }
    s.txq.length ≤ s.txqCap ∧ s.rxq.length ≤ s.rxqCap ∧ ∃ t, step s = .next t := ⟨by decide, by decide, _, rfl⟩

end Sys2Proof.Tests
end

section
/-! PROOFS. The packet store and the queues (`20_memory.md`): what returnPacket (R65) and tryAddTail (R67) do, said once as
equations, and the statements about STORE.RETURN and Q.ADDTAIL. -/

namespace Sys2Proof.Machine

/-! ### returnPacket -/

theorem State.returnPacket_of_owner {s : State} {o : Owner} {p : Handle} (hs : o ≠ .store)
    (ho : s.packets.ownerOf p = o) :
    s.returnPacket o p = .next (State.emit { s with packets := s.packets.release p } (.storeRet p)) :=
  if_pos ⟨hs, ho⟩

theorem State.returnPacket_of_not_owner {s : State} {o : Owner} {p : Handle} (ho : s.packets.ownerOf p ≠ o) :
    s.returnPacket o p = .fault .returnByNonOwner :=
  if_neg fun h => ho h.2

/-- Taking a packet's entry out of the memory is what R65 says of the packets. -/
theorem Memory.goesToStore_release (m : Memory) (p : Handle) : GoesToStore m (m.release p) p :=
  ⟨m.ownerOf_release_self p, fun _ hq => Memory.lookup_release_ne hq m⟩

/-- No context is the store, so a return by any of them is of a packet outside the store. -/
theorem ownerOfCtx_ne_store (c : Ctx) : ownerOfCtx c ≠ .store := by
  cases c <;> decide

theorem exec_storeReturn {s : State} (hr : s.ready = true) (c : Ctx) (p : Handle) :
    exec (.storeReturn c p) s = (s.answer .none).returnPacket (ownerOfCtx c) p :=
  whenReady_of_ready hr _

/-- Settles O40: with the calling context's owner in place of the context, the two cases are the two equations of
returnPacket. -/
theorem returnPacketNeedsTheOwner : Obligations.ReturnPacketNeedsTheOwner := by
  intro s c o p hr hc
  obtain rfl : ownerOfCtx c = o := by
    rcases hc with ⟨rfl, rfl⟩ | ⟨rfl, rfl⟩ | ⟨rfl, rfl⟩ <;> rfl
  rw [exec_storeReturn hr]
  constructor
  · intro ho
    exact ⟨_, State.returnPacket_of_owner (ownerOfCtx_ne_store c) ho, rfl, s.packets.goesToStore_release p⟩
  · intro ho
    exact State.returnPacket_of_not_owner ho

/-! ### tryAddTail -/

/-- Q.ADDTAIL of either queue by R67's own test, the length against the capacity. -/
theorem exec_qAddtail {s : State} (hr : s.ready = true) (q : QName) (p : Handle) :
    exec (.qAddtail q p) s = .next
      (if (s.queue q).length < s.queueCap q then
        ((s.setQueue q (s.queue q ++ [p])).emit (.qAdd q p true)).answer (.bit true)
      else (s.emit (.qAdd q p false)).answer (.bit false)) := by
  have hexec : exec (.qAddtail q p) s = .next ((s.tryAddTail q p).answer (.bit (s.hasRoom q))) :=
    whenReady_of_ready hr _
  rw [hexec]
  split
  · next hlt =>
    have hroom : s.hasRoom q = true := decide_eq_true hlt
    rw [State.tryAddTail_of_room hroom, hroom]
  · next hge =>
    have hfull : s.hasRoom q = false := decide_eq_false hge
    rw [State.tryAddTail_of_full hfull, hfull]

/-- Settles O41: the equation of Q.ADDTAIL at each queue's own name. -/
theorem addTailNeverExceedsTheCapacity : Obligations.AddTailNeverExceedsTheCapacity :=
  fun _ p hr => ⟨exec_qAddtail hr .txq p, exec_qAddtail hr .rxq p⟩

end Sys2Proof.Machine
end

section
/-! PROOFS. The checksum accumulators (`40_checksum.md`): the byte arithmetic as arithmetic of naturals, what each CSUM
operation answers, said once as an equation, and the statements about CSUM.SEED and CSUM.ACC and about the three tests. -/

namespace Sys2Proof

/-! ### Bytes as naturals -/

/-- The accumulator step of R132 in the words of the rule. -/
theorem accByte_eq_ofNat (c b : Byte) : accByte c b = BitVec.ofNat 8 ((c.toNat + b.toNat) % 256) :=
  BitVec.eq_of_toNat_eq (by simp [accByte])

theorem complByte_toNat (c : Byte) : (complByte c).toNat = 255 - c.toNat :=
  BitVec.toNat_not

theorem complByte_eq_ofNat (c : Byte) : complByte c = BitVec.ofNat 8 (255 - c.toNat) := by
  rw [← complByte_toNat, BitVec.ofNat_toNat, BitVec.setWidth_eq]

theorem xor_complByte (c : Byte) : c ^^^ complByte c = 0xFF#8 := by
  rw [complByte, BitVec.not_def, BitVec.xor_comm, BitVec.xor_assoc, BitVec.xor_self, BitVec.xor_zero]
  rfl

/-- The pair test of R134 is the test for the complement, for `c XOR b` is `c XOR complByte c` only at `b = complByte c`. -/
theorem pairTest_iff_eq_complByte (c b : Byte) : pairTest c b = true ↔ b = complByte c := by
  rw [pairTest, beq_iff_eq, ← xor_complByte c, BitVec.xor_right_inj]

theorem pairTest_eq_decide_sum (c b : Byte) : pairTest c b = decide (c.toNat + b.toNat = 255) := by
  rw [Bool.eq_iff_iff, pairTest_iff_eq_complByte, decide_eq_true_iff, ← BitVec.toNat_inj, complByte_toNat]
  have hc : c.toNat < 256 := c.isLt
  omega

end Sys2Proof

namespace Sys2Proof.Machine

/-! ### The operations -/

section
variable {s : State} (hr : s.ready = true) (a : Acc) (b : Byte)
include hr

theorem exec_csumSeed : exec (.csumSeed a b) s = .next ((s.setAcc a (some b)).answer .none) :=
  whenReady_of_ready hr _

variable {c : Byte} (hc : s.acc a = some c)
include hc

theorem exec_csumAcc_of_some :
    exec (.csumAcc a b) s = .next ((s.setAcc a (some (accByte c b))).answer .none) := by
  have hexec : exec (.csumAcc a b) s = .next ((s.accAdd a b).answer .none) := whenReady_of_ready hr _
  rw [hexec, State.accAdd, s.accRead_of_some a c hc, s.accValue_of_some a c hc]

/-- An operation that only reads a held accumulator answers on its value and writes nothing but the result. -/
theorem accTest_of_some (f : Byte → Result) :
    whenReady s (.next ((s.accRead a).answer (f (s.accValue a)))) = .next (s.answer (f c)) := by
  rw [whenReady_of_ready hr, s.accRead_of_some a c hc, s.accValue_of_some a c hc]

theorem exec_csumCompl_of_some : exec (.csumCompl a) s = .next (s.answer (.byte (complByte c))) :=
  accTest_of_some hr a hc fun v => .byte (complByte v)

theorem exec_csumPair_of_some : exec (.csumPair a b) s = .next (s.answer (.bit (pairTest c b))) :=
  accTest_of_some hr a hc fun v => .bit (pairTest v b)

theorem exec_csumMatch_of_some : exec (.csumMatch a b) s = .next (s.answer (.bit (b == c))) :=
  accTest_of_some hr a hc fun v => .bit (b == v)

end

/-- Settles O4: the equations of CSUM.SEED and CSUM.ACC at each accumulator's own field. -/
theorem csumSeedAndAccWriteTheAccumulator : Obligations.CsumSeedAndAccWriteTheAccumulator := by
  intro s b c hr
  rw [← accByte_eq_ofNat]
  exact ⟨exec_csumSeed hr .tx b, exec_csumSeed hr .rx b,
    fun hc => exec_csumAcc_of_some hr .tx b hc, fun hc => exec_csumAcc_of_some hr .rx b hc⟩

/-- Settles O5: each test answers on the held value and only writes the result; the answers are those of the naturals. -/
theorem csumTestsAnswerWithoutChange : Obligations.CsumTestsAnswerWithoutChange := by
  intro s a b c hr hc
  rw [← complByte_eq_ofNat, ← pairTest_eq_decide_sum]
  exact ⟨exec_csumCompl_of_some hr a hc, exec_csumPair_of_some hr a b hc, exec_csumMatch_of_some hr a b hc⟩

end Sys2Proof.Machine
end

section
/-! PROOFS. The transmit machine (`41_transmit.md`): which row TX.SUBMIT selects, what the defensive release, the start of a
frame and the read of a payload byte do, said once as equations, and the statements about TX.SUBMIT, TX.ADV.SIZECHECK and
TX.ADV.BODY. -/

namespace Sys2Proof

/-- A byte and its complement add up to 0xFF. -/
theorem accByte_complByte (c : Byte) : accByte c (complByte c) = 0xFF#8 := by
  apply BitVec.eq_of_toNat_eq
  have hc : c.toNat < 256 := c.isLt
  rw [accByte, BitVec.toNat_add, complByte_toNat, BitVec.toNat_ofNat]
  omega

/-- Size is a byte: the parameters keep MAX_FRAME_SIZE within 253 (R11). -/
theorem Params.size_fits_of_lt {k : Params} (hk : k.ok = true) {n : Nat} (h : n < k.maxFrameSize) : n + 3 ≤ 255 := by
  simp only [Params.ok, Bool.and_eq_true, decide_eq_true_eq] at hk
  omega

end Sys2Proof

namespace Sys2Proof.Machine

/-! ### Whose packet may be submitted, and the row a submission selects -/

theorem State.maySubmit_iff (s : State) (p : Handle) : s.maySubmit p = true ↔ MaySubmit s p := by
  simp [State.maySubmit, MaySubmit]

/-- A packet that may be submitted is outside the store, and no packet of TX may be. -/
theorem MaySubmit.owner_ne {s : State} {p : Handle} (h : MaySubmit s p) :
    s.packets.ownerOf p ≠ .store ∧ s.packets.ownerOf p ≠ .tx := by
  rcases h with h | ⟨h, -⟩ <;> rw [h] <;> decide

section
variable {s : State}

theorem State.submitRow_of_not_idle (h : s.txState ≠ .idle) (p : Option Handle) : s.submitRow p = .busy :=
  if_pos h

theorem State.submitRow_none (h : s.txState = .idle) : s.submitRow none = .null := by
  simp [State.submitRow, h]

theorem State.submitRow_some (h : s.txState = .idle) {p : Handle} {n : Nat} (hn : s.packets.lenOf p = some n) :
    s.submitRow (some p) = if s.params.maxFrameSize ≤ n then .oversize else .accept := by
  simp [State.submitRow, h, hn]

end

/-! ### TX.SUBMIT.REJECT -/

section
variable {s : State} (hr : s.ready = true) {p : Option Handle}
include hr

theorem exec_txSubmitReject_of_busy (hrow : s.submitRow p = .busy) :
    exec (.txSubmitReject p) s = .next ((s.raise .submitBusy).answer (.bit false)) := by
  simp [exec, execTxSubmitReject, whenReady_of_ready hr, hrow]

theorem exec_txSubmitReject_of_null (hrow : s.submitRow p = .null) :
    exec (.txSubmitReject p) s = .next ((s.raise .submitNull).answer (.bit false)) := by
  simp [exec, execTxSubmitReject, whenReady_of_ready hr, hrow]

theorem exec_txSubmitReject_of_oversize (hrow : s.submitRow p = .oversize) (hmay : p.all s.maySubmit = true) :
    exec (.txSubmitReject p) s = .next ((s.raise .submitOversize).answer (.bit false)) := by
  simp [exec, execTxSubmitReject, whenReady_of_ready hr, hrow, hmay]

end

/-- Settles O8: the three clauses are the three rejecting rows, each by the test that selects it. -/
theorem submitRejectChangesNothing : Obligations.SubmitRejectChangesNothing := by
  intro s hr
  refine ⟨fun p hbusy => ?_, fun hidle => ?_, fun h n hidle hmay hn hlong => ?_⟩
  · exact exec_txSubmitReject_of_busy hr (State.submitRow_of_not_idle hbusy p)
  · exact exec_txSubmitReject_of_null hr (State.submitRow_none hidle)
  · have hrow : s.submitRow (some h) = .oversize := by rw [State.submitRow_some hidle hn, if_pos hlong]
    exact exec_txSubmitReject_of_oversize hr hrow ((s.maySubmit_iff h).2 hmay)

/-! ### TX.SUBMIT.ACCEPT -/

theorem State.transfer_of_owner {s : State} {p : Handle} {src : Owner} (hs : src ≠ .store)
    (ho : s.packets.ownerOf p = src) (dst : Owner) :
    s.transfer p src dst = .next { s with packets := s.packets.setOwner p dst } :=
  if_pos ⟨hs, ho⟩

/-- A packet outside the store passes to another owner by a write of its owner. -/
theorem Memory.ownerPasses_setOwner {m : Memory} {p : Handle} (h : m.ownerOf p ≠ .store) (o : Owner) :
    OwnerPasses m (m.setOwner p o) p o :=
  ⟨fun q => m.ownerOf_setOwner p q o h, fun q => m.lenOf_setOwner p q o, fun q i => m.cell_setOwner p q o i⟩

theorem State.releaseHeld_of_none {s : State} (h : s.txPkt = none) (p : Handle) : s.releaseHeld p = .next s := by
  simp [State.releaseHeld, h]

theorem State.releaseHeld_of_other {s : State} {p q : Handle} (h : s.txPkt = some q) (hne : q ≠ p)
    (ho : s.packets.ownerOf q = .tx) :
    s.releaseHeld p = .next
      { s with
        packets := s.packets.release q, trace := s.trace ++ [.storeRet q], txPkt := none, txState := .idle } := by
  simp [State.releaseHeld, h, hne, State.returnPacket_of_owner (by decide) ho, State.emit]

/-- The start of a frame after whatever the defensive release left (R152). -/
theorem State.startFrame_of_releaseHeld {s t : State} {p : Handle} (h : s.releaseHeld p = .next t)
    (ho : t.packets.ownerOf p ≠ .store) (n : Nat) :
    s.startFrame p n = .next
      { t with
        txState := .sendingSize, txPkt := some p, txCsum := some (sizeByte n)
        packets := t.packets.setOwner p .tx, trace := t.trace ++ [.wireOut (sizeByte n)], result := .bit true } := by
  rw [State.startFrame, h, andThen_next, State.transfer_of_owner ho rfl]
  rfl

theorem exec_txSubmitAccept {s : State} {p : Handle} {n : Nat} (hr : s.ready = true) (hidle : s.txState = .idle)
    (hmay : MaySubmit s p) (hn : s.packets.lenOf p = some n) (hlt : n < s.params.maxFrameSize) :
    exec (.txSubmitAccept p) s = s.startFrame p n := by
  have hrow : s.submitRow (some p) = .accept := by rw [State.submitRow_some hidle hn, if_neg (Nat.not_le.2 hlt)]
  simp [exec, execTxSubmitAccept, whenReady_of_ready hr, whenSelected, hrow, (s.maySubmit_iff p).2 hmay, hn]

/-- Settles O9: with no packet held the release does nothing; a held packet of TX is another one, since no packet of TX may
be submitted, and its entry leaves the memory before the submitted packet passes to TX. -/
theorem submitAcceptStartsAFrame : Obligations.SubmitAcceptStartsAFrame := by
  intro s p n hr hidle hmay hn hlt
  obtain ⟨hstore, htx⟩ := hmay.owner_ne
  rw [exec_txSubmitAccept hr hidle hmay hn hlt]
  refine ⟨Params.size_fits_of_lt (ready_params hr) hlt, fun hnone => ?_, fun q hq hown => ?_⟩
  · exact ⟨_, State.startFrame_of_releaseHeld (State.releaseHeld_of_none hnone p) hstore n, rfl,
      Memory.ownerPasses_setOwner hstore .tx⟩
  · have hpq : p ≠ q := fun h => htx (h ▸ hown)
    have hlook : lookup p.id (s.packets.release q) = lookup p.id s.packets := Memory.lookup_release_ne hpq _
    have hstore' : (s.packets.release q).ownerOf p ≠ .store := by rwa [Memory.ownerOf, hlook]
    obtain ⟨howner, hlen, hcell⟩ := Memory.ownerPasses_setOwner hstore' .tx
    refine ⟨_, State.startFrame_of_releaseHeld (State.releaseHeld_of_other hq hpq.symm hown) hstore' n,
      by simp [sizeByte, framingBytes], ?_, ?_, ?_, fun i => ?_, fun r hrp hrq => ?_⟩
    · rw [howner, if_neg hpq.symm, Memory.ownerOf_release_self]
    · rw [howner, if_pos rfl]
    · rw [hlen, Memory.lenOf, hlook]; exact hn
    · rw [hcell, Memory.cell, hlook]; rfl
    · rw [Memory.lookup_setOwner_ne hrp, Memory.lookup_release_ne hrq]

/-! ### TX.ADV.SIZECHECK and TX.ADV.BODY -/

/-- A selected row of TX.ADV with its enable set is its body, run with the event served. -/
theorem serveTx_of_selected {row : TxRow} {s : State} (hr : s.ready = true) (hen : s.irqTxEn = true)
    (hrow : s.txRow = row) (body : State → Res) :
    serveTx row s body = body ((s.enterHandler .txrdy).answer .none) := by
  simp [serveTx, whenReady_of_ready hr, whenSelected, hrow, hen]

theorem State.accAdd_of_some {s : State} {a : Acc} {c : Byte} (h : s.acc a = some c) (b : Byte) :
    s.accAdd a b = s.setAcc a (some (accByte c b)) := by
  rw [State.accAdd, s.accRead_of_some a c h, s.accValue_of_some a c h]

/-- TX.ADV.SIZECHECK with the accumulator holding a byte (R156). -/
theorem exec_txAdvSizecheck_of_some {s : State} {c : Byte} (hr : s.ready = true) (hen : s.irqTxEn = true)
    (hst : s.txState = .sendingSize) (hc : s.txCsum = some c) :
    exec .txAdvSizecheck s = .next
      { s with
        txState := .sendingBody, txOff := some 0, txCsum := some (accByte c (complByte c)), txrdyPending := false
        trace := s.trace ++ [.wireOut (complByte c)], result := .none } := by
  have hrow : s.txRow = .sizecheck := by rw [State.txRow, hst]
  have hacc : ((s.enterHandler .txrdy).answer .none).acc .tx = some c := hc
  have hexec : exec .txAdvSizecheck s = execTxAdvSizecheck s := rfl
  rw [hexec, execTxAdvSizecheck, serveTx_of_selected hr hen hrow, State.accValue_of_some _ _ _ hacc,
    State.accAdd_of_some hacc]
  rfl

/-- Settles O12: the byte written is the complement of the accumulator, and added to it gives 0xFF. -/
theorem txWritesSizeCheck : Obligations.TxWritesSizeCheck := by
  intro s c hr hen hst hc
  rw [exec_txAdvSizecheck_of_some hr hen hst hc, accByte_complByte, complByte_eq_ofNat]

/-- MemRead by the owner, in range, answers the cell (R62, R63). -/
theorem State.memRead_of_owner {s : State} {o : Owner} {p : Handle} {i n : Nat} (ho : s.packets.ownerOf p = o)
    (hn : s.packets.lenOf p = some n) (hi : i < n) :
    s.memRead o p i = (s.packets.cell p i).elim (.error .unwrittenCell) .ok := by
  unfold Memory.ownerOf at ho
  unfold Memory.lenOf at hn
  unfold State.memRead Memory.cell
  cases hk : lookup p.id s.packets with
  | none => simp [hk] at hn
  | some k =>
    simp only [hk, Option.some.injEq] at ho hn
    subst ho hn
    have hown : ¬ k.owner ≠ k.owner := fun h => h rfl
    simp only [if_neg hown, if_neg (Nat.not_le.2 hi)]
    cases lookup i k.cells <;> rfl

/-- TX.ADV.BODY short of the end of the held packet, by what its cell at the offset holds (R157). -/
theorem exec_txAdvBody {s : State} {p : Handle} {o n : Nat} (hr : s.ready = true) (hen : s.irqTxEn = true)
    (hst : s.txState = .sendingBody) (hp : s.txPkt = some p) (hoff : s.txOff = some o)
    (ho : s.packets.ownerOf p = .tx) (hn : s.packets.lenOf p = some n) (hlt : o < n) :
    exec .txAdvBody s = (s.packets.cell p o).elim (.fault .unwrittenCell) fun b =>
      .next (State.writeByte
        { ((s.enterHandler .txrdy).answer .none).accAdd .tx b with txOff := some (o + 1) } b) := by
  have hend : s.txAtEnd = false := by simp [State.txAtEnd, hp, hoff, hn, Nat.ne_of_gt hlt]
  have hrow : s.txRow = .body := by simp [State.txRow, hst, hend]
  have hread : ((s.enterHandler .txrdy).answer .none).memRead .tx p o =
      (s.packets.cell p o).elim (.error .unwrittenCell) .ok := State.memRead_of_owner ho hn hlt
  have hp' : ((s.enterHandler .txrdy).answer .none).txPkt = some p := hp
  have hoff' : ((s.enterHandler .txrdy).answer .none).txOff = some o := hoff
  have hexec : exec .txAdvBody s = execTxAdvBody s := rfl
  rw [hexec, execTxAdvBody, serveTx_of_selected hr hen hrow]
  simp only [hp', hoff', hread]
  cases s.packets.cell p o <;> rfl

/-- Settles O13: a written cell is sent and accumulated, an unwritten one is the fault of the read. -/
theorem txWritesOnePayloadByte : Obligations.TxWritesOnePayloadByte := by
  intro s p o n hr hen hst hp hoff ho hn hlt
  rw [exec_txAdvBody hr hen hst hp hoff ho hn hlt]
  refine ⟨fun b c hc hb => ?_, fun hb => ?_⟩
  · have hacc : ((s.enterHandler .txrdy).answer .none).acc .tx = some c := hc
    rw [hb, Option.elim_some, State.accAdd_of_some hacc, accByte_eq_ofNat]
    rfl
  · rw [hb, Option.elim_none]

end Sys2Proof.Machine
end

section
/-! PROOFS. The receive machine (`42_receive.md`): the row RX.BYTE runs in a state that selects it, what the accesses of
the body and of its last byte do, said once as equations, and the statements about RX_IDLE, RX.AWAIT.RESYNC and
RX_RECEIVING_BODY. -/

namespace Sys2Proof

/-- The pair of R134 as a sum of naturals. -/
theorem xor_eq_ff_iff_sum (c b : Byte) : c ^^^ b = 0xFF#8 ↔ c.toNat + b.toNat = 255 := by
  rw [← decide_eq_true_iff (p := c.toNat + b.toNat = 255), ← pairTest_eq_decide_sum, pairTest, beq_iff_eq]

end Sys2Proof

namespace Sys2Proof.Machine

/-! ### The row of RX.BYTE that a state selects -/

/-- The operation of a row of RX.BYTE. -/
def RxRow.instr (row : RxRow) (b : Byte) : Instr :=
  match row with
  | .idleAccept => .rxIdleAccept b
  | .idleDiscard => .rxIdleDiscard b
  | .awaitValid => .rxAwaitValid b
  | .awaitNobuf => .rxAwaitNobuf b
  | .awaitResync => .rxAwaitResync b
  | .bodyStore => .rxBodyStore b
  | .bodyGood => .rxBodyGood b
  | .bodyGoodQfull => .rxBodyGoodQfull b
  | .bodyBad => .rxBodyBad b

theorem rxInstr_eq_instr (s : State) (b : Byte) : rxInstr s b = (s.rxRow b).instr b := rfl

theorem RxRow.instr_injective {row row' : RxRow} {b : Byte} (h : row.instr b = row'.instr b) : row = row' := by
  cases row <;> cases row' <;> cases h <;> rfl

theorem RxRow.encode_instr (row : RxRow) (b : Byte) : encode (row.instr b) = ⟨.rxByte, [b]⟩ := by
  cases row <;> rfl

/-- The round trip of RX.BYTE, for all nine rows. -/
theorem RxRow.decode_encode_instr (row : RxRow) (b : Byte) : Laws.RoundTrip.Statement (row.instr b) := by
  cases row with
  | idleAccept => exact Laws.RoundTrip.rxIdleAccept b
  | idleDiscard => exact Laws.RoundTrip.rxIdleDiscard b
  | awaitValid => exact Laws.RoundTrip.rxAwaitValid b
  | awaitNobuf => exact Laws.RoundTrip.rxAwaitNobuf b
  | awaitResync => exact Laws.RoundTrip.rxAwaitResync b
  | bodyStore => exact Laws.RoundTrip.rxBodyStore b
  | bodyGood => exact Laws.RoundTrip.rxBodyGood b
  | bodyGoodQfull => exact Laws.RoundTrip.rxBodyGoodQfull b
  | bodyBad => exact Laws.RoundTrip.rxBodyBad b

/-- The guards of R115 determine the row: RX.BYTE decodes to the selected row, and to one row only. -/
theorem State.rxRow_of_selected {s : State} {row : RxRow} {b : Byte} (h : RowSelected s (row.instr b)) :
    s.rxRow b = row := by
  have hdec : decode s ⟨.rxByte, [b]⟩ = .ok (row.instr b) := by
    rw [← row.encode_instr b]
    exact row.decode_encode_instr b s h
  exact RxRow.instr_injective ((rxInstr_eq_instr s b).symm.trans (Except.ok.inj hdec))

/-- A row of RX.BYTE whose state and guard are met is its body. -/
theorem rxRowRun_of_selected {s : State} {b : Byte} (row : RxRow) (hr : s.ready = true)
    (hsel : RowSelected s (row.instr b)) (body : State → Res) :
    rxRowRun row b s body = body (s.answer .none) := by
  simp [rxRowRun, whenReady_of_ready hr, whenSelected, State.rxRow_of_selected hsel]

/-! ### RX_IDLE and RX.AWAIT.RESYNC -/

/-- Settles O17: each clause meets the guard of its row, and the row's body is the equation. -/
theorem rxIdleTakesACandidateOrDropsTheByte : Obligations.RxIdleTakesACandidateOrDropsTheByte := by
  intro s b hr hst
  refine ⟨fun hlt => ?_, fun hge => ?_⟩
  · rw [exec, execRxIdleAccept, rxRowRun_of_selected .idleAccept hr ⟨hst, hlt⟩]
    rfl
  · rw [exec, execRxIdleDiscard, rxRowRun_of_selected .idleDiscard hr ⟨hst, hge⟩]
    rfl

/-- A candidate and an accumulator whose byte `b` does not complete, or a candidate out of bounds, make no pair. -/
theorem not_pairInBounds {s : State} {size c b : Byte} (hsize : s.rxSize = some size) (hc : s.rxCsum = some c)
    (hbad : c.toNat + b.toNat ≠ 255 ∨
      ¬ (3 + s.params.headerLength ≤ size.toNat ∧ size.toNat < s.params.maxFrameSize)) :
    ¬ ∃ size', PairInBounds s b size' := by
  rintro ⟨size', hsize', hxor, hbounds⟩
  obtain rfl : size = size' := Option.some.inj (hsize.symm.trans hsize')
  rw [s.accValue_of_some .rx c hc, xor_eq_ff_iff_sum] at hxor
  exact hbad.elim (fun hne => hne hxor) fun hout => hout hbounds

/-- Settles O20: neither disjunct leaves a pair in bounds, so the row is selected; its new candidate needs no test. -/
theorem rxResyncTakesTheByteAsCandidate : Obligations.RxResyncTakesTheByteAsCandidate := by
  intro s size c b hr hst hsize hc hbad
  rw [exec, execRxAwaitResync, rxRowRun_of_selected .awaitResync hr ⟨hst, not_pairInBounds hsize hc hbad⟩,
    State.accRead_of_some (s.answer .none) .rx c hc]
  simp [State.seedCandidate, State.accSeed, State.setAcc, State.raise, State.emit, State.answer, hst]

/-! ### RX.BODY.STORE -/

/-- MemWrite by the owner, in range, writes the cell (R62). -/
theorem State.memWrite_of_owner {s : State} {o : Owner} {p : Handle} {i n : Nat} (ho : s.packets.ownerOf p = o)
    (hn : s.packets.lenOf p = some n) (hi : i < n) (v : Byte) :
    s.memWrite o p i v = .next { s with packets := s.packets.setCell p i v } := by
  unfold Memory.ownerOf at ho
  unfold Memory.lenOf at hn
  unfold State.memWrite
  cases hk : lookup p.id s.packets with
  | none => simp [hk] at hn
  | some k =>
    simp only [hk, Option.some.injEq] at ho hn
    subst ho hn
    simp [Nat.not_le.2 hi]

/-- A write into a packet outside the store changes its one cell. -/
theorem Memory.cellWritten_setCell {m : Memory} {p : Handle} (h : m.ownerOf p ≠ .store) (i : Nat) (v : Byte) :
    CellWritten m (m.setCell p i v) p i v :=
  ⟨fun q j => m.cell_setCell p q i j v h, fun q => m.ownerOf_setCell p q i v, fun q => m.lenOf_setCell p q i v⟩

/-- An offset below the length of the held packet is not at the end of the body. -/
theorem not_rxAtLength_of_lt {s : State} {p : Handle} {o n : Nat} (hp : s.rxPkt = some p) (hoff : s.rxOff = some o)
    (hn : s.packets.lenOf p = some n) (hlt : o < n) : ¬ RxAtLength s := by
  rintro ⟨p', o', hp', hoff', hn'⟩
  obtain rfl : p = p' := Option.some.inj (hp.symm.trans hp')
  obtain rfl : o = o' := Option.some.inj (hoff.symm.trans hoff')
  exact Nat.ne_of_lt hlt (Option.some.inj (hn'.symm.trans hn))

/-- Settles O21: the write is the owner's, in range, and the byte joins the accumulator's value. -/
theorem rxStoresOnePayloadByte : Obligations.RxStoresOnePayloadByte := by
  intro s p o n b c hr hst hp hoff hc ho hn hlt
  have hstore : s.packets.ownerOf p ≠ .store := by rw [ho]; decide
  have hwrite := State.memWrite_of_owner (s := s.answer .none) ho hn hlt b
  have hacc : State.acc { s.answer .none with packets := s.packets.setCell p o b } .rx = some c := hc
  rw [exec, execRxBodyStore, rxRowRun_of_selected .bodyStore hr ⟨hst, not_rxAtLength_of_lt hp hoff hn hlt⟩]
  simp only [State.answer_rxPkt, State.answer_rxOff, hp, hoff]
  rw [hwrite, andThen_next, State.answer_packets, State.accAdd_of_some hacc, accByte_eq_ofNat]
  exact ⟨_, rfl, by rw [← hp]; rfl, Memory.cellWritten_setCell hstore o b⟩

/-! ### The last byte of a body -/

/-- The callback is shown the payload of a packet of RX (R194). -/
theorem State.runCallback_of_payload {s : State} {p : Handle} {P : List Byte} (ho : s.packets.ownerOf p = .rx)
    (hP : s.packets.payload p = some P) : s.runCallback p = .next (s.emit (.callback s.rxCallback p P)) := by
  simp [State.runCallback, ho, hP]

/-- The callback of RX.BODY.GOOD and of RX.BODY.GOOD.QFULL, with the accumulator holding a byte: the row goes on from
the state whose trace has the payload. -/
theorem andThen_runCallback {s : State} {c : Byte} {p : Handle} {P : List Byte} (hc : s.rxCsum = some c)
    (ho : s.packets.ownerOf p = .rx) (hP : s.packets.payload p = some P) (k : State → Res) :
    andThen (((s.answer .none).accRead .rx).runCallback p) k =
      k ((s.answer .none).emit (.callback s.rxCallback p P)) := by
  rw [State.accRead_of_some (s.answer .none) .rx c hc, State.runCallback_of_payload (s := s.answer .none) ho hP]
  rfl

section
variable {s : State} {b c : Byte} (hr : s.ready = true) (hst : s.rxState = .receivingBody)
  (hend : RxAtLength s) (hc : s.rxCsum = some c) {p : Handle} (hp : s.rxPkt = some p) (ho : s.packets.ownerOf p = .rx)
include hr hst hend hc hp ho

/-- RX.BODY.BAD with the accumulator holding a byte (R191). -/
theorem exec_rxBodyBad_of_some (hb : b ≠ c) :
    exec (.rxBodyBad b) s = .next
      { s.endReceive with
        packets := s.packets.release p, trace := s.trace ++ [.outcome (.checksum b c), .storeRet p]
        result := .none } := by
  have hsel : RowSelected s (.rxBodyBad b) := ⟨hst, hend, (s.accValue_of_some .rx c hc).symm ▸ hb⟩
  rw [exec, execRxBodyBad, rxRowRun_of_selected .bodyBad hr hsel]
  simp only [State.answer_rxPkt, hp]
  rw [State.accRead_of_some (s.answer .none) .rx c hc, State.accValue_of_some (s.answer .none) .rx c hc,
    State.returnPacket_of_owner]
  · simp [State.endReceive, State.raise, State.emit, State.answer]
  · decide
  · exact ho

variable {P : List Byte} (hP : s.packets.payload p = some P)
include hP

/-- RX.BODY.GOOD with the accumulator holding a byte (R189). -/
theorem exec_rxBodyGood_of_some (hroom : s.rxq.length < s.rxqCap) :
    exec (.rxBodyGood c) s = .next
      { s.endReceive with
        rxq := s.rxq ++ [p], packets := s.packets.setOwner p .rxq
        trace := s.trace ++ [.callback s.rxCallback p P, .qAdd .rxq p true], result := .none } := by
  have hsel : RowSelected s (.rxBodyGood c) := ⟨hst, hend, (s.accValue_of_some .rx c hc).symm, hroom⟩
  rw [exec, execRxBodyGood, rxRowRun_of_selected .bodyGood hr hsel]
  simp only [State.answer_rxPkt, hp]
  rw [andThen_runCallback hc ho hP, State.tryAddTail_of_room, State.transfer_of_owner]
  · simp [State.endReceive, State.setQueue, State.queue, State.emit, State.answer]
  · decide
  · exact ho
  · exact decide_eq_true hroom

/-- RX.BODY.GOOD.QFULL with the accumulator holding a byte (R190). -/
theorem exec_rxBodyGoodQfull_of_some (hfull : ¬ s.rxq.length < s.rxqCap) :
    exec (.rxBodyGoodQfull c) s = .next
      { s.endReceive with
        packets := s.packets.release p
        trace := s.trace ++ [.callback s.rxCallback p P, .qAdd .rxq p false, .outcome .qfull, .storeRet p]
        result := .none } := by
  have hsel : RowSelected s (.rxBodyGoodQfull c) := ⟨hst, hend, (s.accValue_of_some .rx c hc).symm, hfull⟩
  rw [exec, execRxBodyGoodQfull, rxRowRun_of_selected .bodyGoodQfull hr hsel]
  simp only [State.answer_rxPkt, hp]
  rw [andThen_runCallback hc ho hP, State.tryAddTail_of_full, State.returnPacket_of_owner]
  · simp [State.endReceive, State.raise, State.emit, State.answer]
  · decide
  · exact ho
  · exact decide_eq_false hfull

end

/-- Settles O22: the packet is RX's, outside the store, so it passes to RXQ by a write of its owner. -/
theorem rxGoodFrameIsCalledBackAndQueued : Obligations.RxGoodFrameIsCalledBackAndQueued := by
  intro s p n b P hr hst hp hoff hn hc ho hP hroom
  have hstore : s.packets.ownerOf p ≠ .store := by rw [ho]; decide
  exact ⟨_, exec_rxBodyGood_of_some hr hst ⟨p, n, hp, hoff, hn⟩ hc hp ho hP hroom, rfl,
    Memory.ownerPasses_setOwner hstore .rxq⟩

/-- Settles O23: the queue refuses the packet after the callback, and the return takes its entry out of the memory. -/
theorem rxGoodFrameWithFullQueueIsReturned : Obligations.RxGoodFrameWithFullQueueIsReturned := by
  intro s p n b P hr hst hp hoff hn hc ho hP hfull
  exact ⟨_, exec_rxBodyGoodQfull_of_some hr hst ⟨p, n, hp, hoff, hn⟩ hc hp ho hP (Nat.not_lt.2 hfull), rfl,
    s.packets.goesToStore_release p⟩

/-- Settles O24: the row's only access to the packet is its return, which takes its entry out of the memory. -/
theorem rxBadChecksumReturnsThePacket : Obligations.RxBadChecksumReturnsThePacket := by
  intro s p n b c hr hst hp hoff hn hc hb ho
  exact ⟨_, exec_rxBodyBad_of_some hr hst ⟨p, n, hp, hoff, hn⟩ hc hp ho hb, rfl, s.packets.goesToStore_release p⟩

end Sys2Proof.Machine
end

section
/-! PROOFS. The decoder (`30_encoding.md` section 4): what an operand list of no byte and of one byte decodes to, that the
row each of the three families selects has its guard met, and the statements about decoding and encoding. -/

namespace Sys2Proof.Machine

/-! ### Operand bytes -/

theorem noByte_eq_ok {i j : Instr} {bytes : List Byte} : noByte i bytes = .ok j ↔ bytes = [] ∧ i = j := by
  cases bytes <;> simp [noByte]

theorem oneByte_eq_ok {f : Byte → Instr} {j : Instr} {bytes : List Byte} :
    oneByte f bytes = .ok j ↔ ∃ b, bytes = [b] ∧ f b = j := by
  rcases bytes with _ | ⟨b, _ | ⟨b', l⟩⟩ <;> simp [oneByte]

/-! ### The row a family selects has its state and guard met -/

/-- TX.SUBMIT selects the accepting row exactly of a packet, from an idle TX, whose length is not too long. -/
theorem State.submitRow_eq_accept {s : State} {p : Option Handle} (h : s.submitRow p = .accept) :
    ∃ q, p = some q ∧ s.txState = .idle ∧ ∀ n, s.packets.lenOf q = some n → n < s.params.maxFrameSize := by
  unfold State.submitRow at h
  split at h
  · cases h
  · rename_i hidle
    split at h
    · cases h
    · rename_i q
      refine ⟨q, rfl, not_not.1 hidle, fun n hn => ?_⟩
      by_contra hle
      simp [hn, Nat.not_lt.1 hle] at h

theorem State.submitRow_ne_accept {s : State} {p : Option Handle} (h : s.submitRow p ≠ .accept) :
    RowSelected s (.txSubmitReject p) := by
  by_cases hidle : s.txState = .idle
  · cases p with
    | none => exact .inr (.inl rfl)
    | some q =>
      cases hn : s.packets.lenOf q with
      | none => simp [State.submitRow, hidle, hn] at h
      | some n =>
        rw [State.submitRow_some hidle hn] at h
        exact .inr (.inr ⟨q, n, rfl, hn, by_contra fun hlt => h (if_neg hlt)⟩)
  · exact .inl hidle

theorem submitInstr_of_accept {s : State} {q : Handle} (h : s.submitRow (some q) = .accept) :
    submitInstr s (some q) = .txSubmitAccept q := by
  simp [submitInstr, h]

theorem submitInstr_of_ne_accept {s : State} {p : Option Handle} (h : s.submitRow p ≠ .accept) :
    submitInstr s p = .txSubmitReject p := by
  unfold submitInstr
  split
  · exact absurd ‹_› h
  · rfl

theorem submitInstr_selected (s : State) (p : Option Handle) :
    encode (submitInstr s p) = ⟨.txSubmit p, []⟩ ∧ RowSelected s (submitInstr s p) := by
  by_cases h : s.submitRow p = .accept
  · obtain ⟨q, rfl, hidle, hn⟩ := State.submitRow_eq_accept h
    rw [submitInstr_of_accept h]
    exact ⟨rfl, hidle, hn⟩
  · rw [submitInstr_of_ne_accept h]
    exact ⟨rfl, State.submitRow_ne_accept h⟩

/-- The operation of a row of TX.ADV. -/
def TxRow.instr : TxRow → Instr
  | .idle => .txAdvIdle
  | .sizecheck => .txAdvSizecheck
  | .body => .txAdvBody
  | .trailer => .txAdvTrailer

theorem txInstr_eq_instr (s : State) : txInstr s = s.txRow.instr := rfl

theorem TxRow.encode_instr (row : TxRow) : encode row.instr = ⟨.txAdv, []⟩ := by
  cases row <;> rfl

theorem txInstr_selected (s : State) : RowSelected s (txInstr s) := by
  cases hst : s.txState with
  | idle => simpa [txInstr, State.txRow, hst] using show RowSelected s .txAdvIdle from hst
  | sendingSize => simpa [txInstr, State.txRow, hst] using show RowSelected s .txAdvSizecheck from hst
  | sendingBody =>
    cases hend : s.txAtEnd with
    | true => simpa [txInstr, State.txRow, hst, hend] using
        show RowSelected s .txAdvTrailer from ⟨hst, (Laws.RoundTrip.txAtEnd_iff s).1 hend⟩
    | false => simpa [txInstr, State.txRow, hst, hend] using
        show RowSelected s .txAdvBody from ⟨hst, by simp [← Laws.RoundTrip.txAtEnd_iff, hend]⟩

/-- In RX_AWAIT_SIZECHECK: no pair resynchronises, and a pair goes by the store's answer. -/
theorem rxInstr_selected_of_await {s : State} {b : Byte} (hst : s.rxState = .awaitSizecheck) :
    RowSelected s (rxInstr s b) := by
  by_cases hpair : ∃ size, PairInBounds s b size
  · obtain ⟨size, hp⟩ := hpair
    have htest := (Laws.RoundTrip.pair_iff s b size hp.1).2 hp
    cases ha : s.storeAnswer (s.params.requestLength size) with
    | none =>
      have hrow : s.rxRow b = .awaitNobuf := by simp only [State.rxRow, hst, hp.1, htest, if_true, ha]
      rw [rxInstr_eq_instr, hrow]
      exact ⟨hst, size, hp, ha⟩
    | some q =>
      have hrow : s.rxRow b = .awaitValid := by simp only [State.rxRow, hst, hp.1, htest, if_true, ha]
      rw [rxInstr_eq_instr, hrow]
      exact ⟨hst, size, hp, fun hnone => Option.some_ne_none q (ha.symm.trans hnone)⟩
  · have hrow : rxInstr s b = .rxAwaitResync b :=
      Except.ok.inj (Laws.RoundTrip.rxAwaitResync b s ⟨hst, hpair⟩)
    rw [hrow]
    exact ⟨hst, hpair⟩

/-- In RX_RECEIVING_BODY: short of the end a byte is stored, and at the end it goes by the Checksum and the room. -/
theorem rxInstr_selected_of_body {s : State} {b : Byte} (hst : s.rxState = .receivingBody) :
    RowSelected s (rxInstr s b) := by
  cases hend : s.rxAtEnd with
  | false =>
    have hnot : ¬ RxAtLength s := by simp [← Laws.RoundTrip.rxAtEnd_iff, hend]
    simpa [rxInstr, State.rxRow, hst, hend] using show RowSelected s (.rxBodyStore b) from ⟨hst, hnot⟩
  | true =>
    have hat : RxAtLength s := (Laws.RoundTrip.rxAtEnd_iff s).1 hend
    by_cases hb : b = s.accValue .rx
    · by_cases hroom : s.rxq.length < s.rxqCap
      · have hrow : s.rxRow b = .bodyGood := by
          simp [State.rxRow, hst, hend, ← hb, State.hasRoom, State.queue, State.queueCap, hroom]
        rw [rxInstr_eq_instr, hrow]
        exact ⟨hst, hat, hb, hroom⟩
      · have hrow : s.rxRow b = .bodyGoodQfull := by
          simp [State.rxRow, hst, hend, ← hb, State.hasRoom, State.queue, State.queueCap, hroom]
        rw [rxInstr_eq_instr, hrow]
        exact ⟨hst, hat, hb, hroom⟩
    · simpa [rxInstr, State.rxRow, hst, hend, hb] using
        show RowSelected s (.rxBodyBad b) from ⟨hst, hat, hb⟩

theorem rxInstr_selected (s : State) (b : Byte) : RowSelected s (rxInstr s b) := by
  cases hst : s.rxState with
  | idle =>
    by_cases hb : b.toNat < s.params.maxFrameSize
    · simpa [rxInstr, State.rxRow, hst, Params.belowMax, hb] using
        show RowSelected s (.rxIdleAccept b) from ⟨hst, hb⟩
    · simpa [rxInstr, State.rxRow, hst, Params.belowMax, hb] using
        show RowSelected s (.rxIdleDiscard b) from ⟨hst, Nat.not_lt.1 hb⟩
  | awaitSizecheck => exact rxInstr_selected_of_await hst
  | receivingBody => exact rxInstr_selected_of_body hst

/-! ### Decoding and encoding -/

/-- The call of a selected operation decodes to it (R116), for all operations. -/
theorem decode_encode (i : Instr) : Laws.RoundTrip.Statement i := by
  cases i with
  | csumSeed a b => exact Laws.RoundTrip.csumSeed a b
  | csumAcc a b => exact Laws.RoundTrip.csumAcc a b
  | csumCompl a => exact Laws.RoundTrip.csumCompl a
  | csumPair a b => exact Laws.RoundTrip.csumPair a b
  | csumMatch a b => exact Laws.RoundTrip.csumMatch a b
  | txSubmitReject p => exact Laws.RoundTrip.txSubmitReject p
  | txSubmitAccept p => exact Laws.RoundTrip.txSubmitAccept p
  | txAdvIdle => exact Laws.RoundTrip.txAdvIdle
  | txAdvSizecheck => exact Laws.RoundTrip.txAdvSizecheck
  | txAdvBody => exact Laws.RoundTrip.txAdvBody
  | txAdvTrailer => exact Laws.RoundTrip.txAdvTrailer
  | rxIdleAccept b => exact Laws.RoundTrip.rxIdleAccept b
  | rxIdleDiscard b => exact Laws.RoundTrip.rxIdleDiscard b
  | rxAwaitValid b => exact Laws.RoundTrip.rxAwaitValid b
  | rxAwaitNobuf b => exact Laws.RoundTrip.rxAwaitNobuf b
  | rxAwaitResync b => exact Laws.RoundTrip.rxAwaitResync b
  | rxBodyStore b => exact Laws.RoundTrip.rxBodyStore b
  | rxBodyGood b => exact Laws.RoundTrip.rxBodyGood b
  | rxBodyGoodQfull b => exact Laws.RoundTrip.rxBodyGoodQfull b
  | rxBodyBad b => exact Laws.RoundTrip.rxBodyBad b
  | rxDrain => exact Laws.RoundTrip.rxDrain
  | rxOvrClear => exact Laws.RoundTrip.rxOvrClear
  | sysInit n m cb => exact Laws.RoundTrip.sysInit n m cb
  | sysCritEnter => exact Laws.RoundTrip.sysCritEnter
  | sysCritLeave => exact Laws.RoundTrip.sysCritLeave
  | fgSend p => exact Laws.RoundTrip.fgSend p
  | fgProcess => exact Laws.RoundTrip.fgProcess
  | fgRecv => exact Laws.RoundTrip.fgRecv
  | fgQuery q f => exact Laws.RoundTrip.fgQuery q f
  | storeRequest c d => exact Laws.RoundTrip.storeRequest c d
  | storeReturn c p => exact Laws.RoundTrip.storeReturn c p
  | qAddtail q p => exact Laws.RoundTrip.qAddtail q p
  | qRemhead q => exact Laws.RoundTrip.qRemhead q
  | qRemtail q => exact Laws.RoundTrip.qRemtail q
  | qIsempty q => exact Laws.RoundTrip.qIsempty q
  | qIsfull q => exact Laws.RoundTrip.qIsfull q
  | qSize q => exact Laws.RoundTrip.qSize q
  | chWrite b => exact Laws.RoundTrip.chWrite b
  | chAvail => exact Laws.RoundTrip.chAvail
  | chRead => exact Laws.RoundTrip.chRead
  | chOvrclr => exact Laws.RoundTrip.chOvrclr
  | chIrqen src on => exact Laws.RoundTrip.chIrqen src on
  | envRxbyte b => exact Laws.RoundTrip.envRxbyte b
  | envRxlose => exact Laws.RoundTrip.envRxlose
  | envTxrdy => exact Laws.RoundTrip.envTxrdy
  | envRxrdy => exact Laws.RoundTrip.envRxrdy

/-- What the decoder answers is an operation of the call, with its guard met. -/
theorem decode_eq_ok {s : State} {c : Call} {i : Instr} (h : decode s c = .ok i) :
    encode i = c ∧ RowSelected s i := by
  obtain ⟨entry, bytes⟩ := c
  cases entry
  case csumSeed | csumAcc | csumPair | csumMatch | chWrite | envRxbyte =>
    obtain ⟨b, rfl, rfl⟩ := oneByte_eq_ok.1 h
    exact ⟨rfl, trivial⟩
  case rxByte =>
    obtain ⟨b, rfl, rfl⟩ := oneByte_eq_ok.1 h
    exact ⟨RxRow.encode_instr (s.rxRow b) b, rxInstr_selected s b⟩
  case txSubmit p =>
    obtain ⟨rfl, rfl⟩ := noByte_eq_ok.1 h
    exact submitInstr_selected s p
  case txAdv =>
    obtain ⟨rfl, rfl⟩ := noByte_eq_ok.1 h
    exact ⟨TxRow.encode_instr s.txRow, txInstr_selected s⟩
  case rxOvrClear =>
    simp only [decode] at h
    split at h
    · obtain ⟨rfl, rfl⟩ := noByte_eq_ok.1 h
      exact ⟨rfl, ‹_›⟩
    · cases h
  case sysInit =>
    simp only [decode] at h
    split at h
    · cases h
    · obtain ⟨rfl, rfl⟩ := noByte_eq_ok.1 h
      exact ⟨rfl, Bool.eq_false_iff.2 ‹_›⟩
  case storeRequest =>
    simp only [decode] at h
    split at h
    · cases h
    · obtain ⟨rfl, rfl⟩ := noByte_eq_ok.1 h
      exact ⟨rfl, ‹_›⟩
  all_goals
    obtain ⟨rfl, rfl⟩ := noByte_eq_ok.1 h
    exact ⟨rfl, trivial⟩

/-- Settles O49: what is decoded is of the call and selected, and the call of a selected operation decodes to it. -/
theorem decodeAndEncodeAgree : Obligations.DecodeAndEncodeAgree := by
  intro s c i
  refine ⟨decode_eq_ok, ?_⟩
  rintro ⟨rfl, hsel⟩
  exact decode_encode i s hsel

/-- A call that decodes has exactly one selected operation, the one decoded. -/
theorem exists_unique_selected {s : State} {c : Call} {i : Instr} (h : decode s c = .ok i) :
    (encode i = c ∧ RowSelected s i) ∧ ∀ j, encode j = c → RowSelected s j → j = i :=
  ⟨decode_eq_ok h, fun j hj hsel =>
    Except.ok.inj (((decodeAndEncodeAgree s c j).2 ⟨hj, hsel⟩).symm.trans h)⟩

/-- Settles O50: each of the three calls decodes, whatever the state. -/
theorem exactlyOneRowIsSelected : Obligations.ExactlyOneRowIsSelected := by
  intro s
  have hsubmit (p) : decode s ⟨.txSubmit p, []⟩ = .ok (submitInstr s p) := rfl
  have hadv : decode s ⟨.txAdv, []⟩ = .ok (txInstr s) := rfl
  have hbyte (b) : decode s ⟨.rxByte, [b]⟩ = .ok (rxInstr s b) := rfl
  exact ⟨fun p => ⟨_, exists_unique_selected (hsubmit p)⟩, ⟨_, exists_unique_selected hadv⟩,
    fun b => ⟨_, exists_unique_selected (hbyte b)⟩⟩

/-- Settles O53: the decoder evaluated at the reset state. -/
theorem sampleCallsDecodeToTheirRows : Obligations.SampleCallsDecodeToTheirRows :=
  ⟨rfl, rfl, rfl, rfl, rfl, rfl, rfl⟩

/-! ### Rows that are not selected -/

theorem whenSelected_false (r : Res) : whenSelected false r = .refused .notSelected := rfl

theorem serveTx_of_unselected {row : TxRow} {s : State} (hr : s.ready = true) (h : ¬ RowSelected s row.instr)
    (body : State → Res) : serveTx row s body = .refused .notSelected := by
  have hrow : (s.txRow == row) = false := by
    rw [beq_eq_false_iff_ne]
    rintro rfl
    exact h (txInstr_selected s)
  rw [serveTx, whenReady_of_ready hr, hrow, whenSelected_false]

theorem rxRowRun_of_unselected {row : RxRow} {b : Byte} {s : State} (hr : s.ready = true)
    (h : ¬ RowSelected s (row.instr b)) (body : State → Res) :
    rxRowRun row b s body = .refused .notSelected := by
  have hrow : (s.rxRow b == row) = false := by
    rw [beq_eq_false_iff_ne]
    rintro rfl
    exact h (rxInstr_selected s b)
  rw [rxRowRun, whenReady_of_ready hr, hrow, whenSelected_false]

theorem exec_txSubmitReject_of_accept {s : State} (hr : s.ready = true) {p : Option Handle}
    (hrow : s.submitRow p = .accept) : exec (.txSubmitReject p) s = .refused .notSelected := by
  simp [exec, execTxSubmitReject, whenReady_of_ready hr, hrow]

/-- The nine rows of RX.BYTE are the operations of the nine rows. -/
theorem eq_instr_of_isRxByteRow {i : Instr} (h : isRxByteRow i = true) : ∃ row b, i = RxRow.instr row b := by
  cases i
  case rxIdleAccept b => exact ⟨.idleAccept, b, rfl⟩
  case rxIdleDiscard b => exact ⟨.idleDiscard, b, rfl⟩
  case rxAwaitValid b => exact ⟨.awaitValid, b, rfl⟩
  case rxAwaitNobuf b => exact ⟨.awaitNobuf, b, rfl⟩
  case rxAwaitResync b => exact ⟨.awaitResync, b, rfl⟩
  case rxBodyStore b => exact ⟨.bodyStore, b, rfl⟩
  case rxBodyGood b => exact ⟨.bodyGood, b, rfl⟩
  case rxBodyGoodQfull b => exact ⟨.bodyGoodQfull, b, rfl⟩
  case rxBodyBad b => exact ⟨.bodyBad, b, rfl⟩
  all_goals cases h

/-- Every row of RX.BYTE is a body run where the state selects the row. -/
theorem exists_rxRow_body (row : RxRow) (b : Byte) :
    ∃ body, ∀ s, exec (row.instr b) s = rxRowRun row b s body := by
  cases row with
  | idleAccept => exact ⟨_, fun _ => by rw [RxRow.instr, exec, execRxIdleAccept]⟩
  | idleDiscard => exact ⟨_, fun _ => by rw [RxRow.instr, exec, execRxIdleDiscard]⟩
  | awaitValid => exact ⟨_, fun _ => by rw [RxRow.instr, exec, execRxAwaitValid]⟩
  | awaitNobuf => exact ⟨_, fun _ => by rw [RxRow.instr, exec, execRxAwaitNobuf]⟩
  | awaitResync => exact ⟨_, fun _ => by rw [RxRow.instr, exec, execRxAwaitResync]⟩
  | bodyStore => exact ⟨_, fun _ => by rw [RxRow.instr, exec, execRxBodyStore]⟩
  | bodyGood => exact ⟨_, fun _ => by rw [RxRow.instr, exec, execRxBodyGood]⟩
  | bodyGoodQfull => exact ⟨_, fun _ => by rw [RxRow.instr, exec, execRxBodyGoodQfull]⟩
  | bodyBad => exact ⟨_, fun _ => by rw [RxRow.instr, exec, execRxBodyBad]⟩

/-- Every row of TX.ADV is a body served where the state selects the row. -/
theorem exists_txRow_body (row : TxRow) : ∃ body, ∀ s, exec row.instr s = serveTx row s body := by
  cases row with
  | idle => exact ⟨_, fun _ => by rw [TxRow.instr, exec, execTxAdvIdle]⟩
  | sizecheck => exact ⟨_, fun _ => by rw [TxRow.instr, exec, execTxAdvSizecheck]⟩
  | body => exact ⟨_, fun _ => by rw [TxRow.instr, exec, execTxAdvBody]⟩
  | trailer => exact ⟨_, fun _ => by rw [TxRow.instr, exec, execTxAdvTrailer]⟩

theorem exec_rxRow_of_unselected {row : RxRow} {b : Byte} {s : State} (hr : s.ready = true)
    (h : ¬ RowSelected s (row.instr b)) : exec (row.instr b) s = .refused .notSelected := by
  obtain ⟨body, hbody⟩ := exists_rxRow_body row b
  rw [hbody, rxRowRun_of_unselected hr h]

theorem exec_advRow_of_unselected {row : TxRow} {s : State} (hr : s.ready = true) (h : ¬ RowSelected s row.instr) :
    exec row.instr s = .refused .notSelected := by
  obtain ⟨body, hbody⟩ := exists_txRow_body row
  rw [hbody, serveTx_of_unselected hr h]

theorem exec_txRow_of_unselected {i : Instr} {s : State} (hr : s.ready = true) (hi : isTxRow i = true)
    (h : ¬ RowSelected s i) : exec i s = .refused .notSelected := by
  cases i
  case txSubmitReject p =>
    exact exec_txSubmitReject_of_accept hr (by_contra fun hne => h (State.submitRow_ne_accept hne))
  case txSubmitAccept p =>
    have hrow : (s.submitRow (some p) == .accept) = false := by
      rw [beq_eq_false_iff_ne]
      intro hacc
      obtain ⟨q, hq, hidle, hn⟩ := State.submitRow_eq_accept hacc
      obtain rfl : p = q := Option.some.inj hq
      exact h ⟨hidle, hn⟩
    rw [exec, execTxSubmitAccept, whenReady_of_ready hr, hrow, whenSelected_false]
  case txAdvIdle => exact exec_advRow_of_unselected (row := .idle) hr h
  case txAdvSizecheck => exact exec_advRow_of_unselected (row := .sizecheck) hr h
  case txAdvBody => exact exec_advRow_of_unselected (row := .body) hr h
  case txAdvTrailer => exact exec_advRow_of_unselected (row := .trailer) hr h
  all_goals cases hi

theorem exec_rxOvrClear {s : State} (hr : s.ready = true) :
    exec .rxOvrClear s = whenSelected s.chanOvr (.next (s.clearOverrun.answer .none)) :=
  whenReady_of_ready hr _

/-- Settles O51: the guard of a row is the decoder's own selection, so an unselected row is refused. -/
theorem unselectedRowsDoNotRun : Obligations.UnselectedRowsDoNotRun := by
  refine ⟨fun s i hr hi hsel => ?_, fun s hr hovr => ?_⟩
  · rcases hi with hi | hi
    · exact exec_txRow_of_unselected hr hi hsel
    · obtain ⟨row, b, rfl⟩ := eq_instr_of_isRxByteRow hi
      exact exec_rxRow_of_unselected hr hsel
  · rw [exec_rxOvrClear hr, hovr, whenSelected_false]

end Sys2Proof.Machine
end

section
/-! PROOFS. The Checksum and the Frame format (`30_encoding.md` sections 1 to 3, `40_checksum.md` sections 3 and 4): the
running sum as one addition, the bytes of a frame, and the statements about both. -/

namespace Sys2Proof

/-! ### The running sum -/

@[simp] theorem byteSum_nil : byteSum [] = 0 := rfl

@[simp] theorem byteSum_cons (b : Byte) (P : List Byte) : byteSum (b :: P) = b.toNat + byteSum P := by
  simp [byteSum]

@[simp] theorem byteSum_append (P Q : List Byte) : byteSum (P ++ Q) = byteSum P + byteSum Q := by
  simp [byteSum]

/-- Accumulating a list of bytes adds their sum. -/
theorem foldl_accByte (P : List Byte) (c : Byte) : P.foldl accByte c = c + BitVec.ofNat 8 (byteSum P) := by
  induction P generalizing c with
  | nil => simp
  | cons b P ih =>
    rw [List.foldl_cons, ih, byteSum_cons, BitVec.ofNat_add, BitVec.ofNat_toNat, BitVec.setWidth_eq, accByte,
      BitVec.add_assoc]

theorem checksumOf_eq_add (P : List Byte) : checksumOf P = 0xFF#8 + BitVec.ofNat 8 (byteSum P) :=
  BitVec.ofNat_add 255 (byteSum P)

/-- The accumulator after a Size, its complement and the payload holds the closed form (R139). -/
theorem foldl_accByte_pair (size : Byte) (P : List Byte) :
    P.foldl accByte (accByte size (complByte size)) = checksumOf P := by
  rw [foldl_accByte, accByte_complByte, checksumOf_eq_add]

/-- The closed form grows by one byte as the accumulator does. -/
theorem accByte_checksumOf (P : List Byte) (b : Byte) : accByte (checksumOf P) b = checksumOf (P ++ [b]) := by
  rw [checksumOf_eq_add, checksumOf_eq_add, byteSum_append, BitVec.ofNat_add, byteSum_cons, byteSum_nil, Nat.add_zero,
    BitVec.ofNat_toNat, BitVec.setWidth_eq, accByte, BitVec.add_assoc]

theorem checksumOf_toNat (P : List Byte) : (checksumOf P).toNat = (255 + byteSum P) % 256 :=
  BitVec.toNat_ofNat _ _

/-! ### The bytes of a frame -/

theorem sizeByte_toNat {n : Nat} (h : n ≤ 252) : (sizeByte n).toNat = n + 3 := by
  rw [sizeByte, framingBytes, BitVec.toNat_ofNat]
  omega

/-- SizeCheck as the complement of Size (R103). -/
theorem complByte_sizeByte {n : Nat} (h : n ≤ 252) : complByte (sizeByte n) = BitVec.ofNat 8 (255 - (n + 3)) := by
  rw [complByte_eq_ofNat, sizeByte_toNat h]

/-- A frame byte by byte (R106). -/
theorem frame_eq_cons {P : List Byte} (h : P.length ≤ 252) :
    frame P = sizeByte P.length :: complByte (sizeByte P.length) :: (P ++ [checksumOf P]) := by
  rw [complByte_sizeByte h]
  rfl

theorem frame_length (P : List Byte) : (frame P).length = P.length + 3 := by
  simp [frame]

theorem byteSum_frame {P : List Byte} (h : P.length ≤ 252) :
    byteSum (frame P) = 255 + byteSum P + (checksumOf P).toNat := by
  have hsize := sizeByte_toNat h
  have hcheck := complByte_toNat (sizeByte P.length)
  simp only [frame_eq_cons h, byteSum_cons, byteSum_append, byteSum_nil]
  omega

/-- Settles O7: the closed form is the byte 0xFF plus the sum of the payload, in which one byte can be cancelled and the order
does not count. -/
theorem runningSumIsTheClosedForm : Obligations.RunningSumIsTheClosedForm := by
  refine ⟨fun size P => ?_, rfl, fun P hP => ?_, fun xs ys a b hab => ?_, fun P Q hPQ => ?_⟩
  · rw [foldl_accByte_pair, ← checksumOf_toNat, BitVec.ofNat_toNat, BitVec.setWidth_eq]
  · apply BitVec.eq_of_toNat_eq
    rw [byteSum_frame hP, BitVec.toNat_ofNat, BitVec.toNat_ofNat, checksumOf_toNat]
    omega
  · apply BitVec.eq_of_toNat_eq
    have hsum := congrArg BitVec.toNat hab
    simp only [checksumOf_toNat, byteSum_append, byteSum_cons] at hsum
    have ha : a.toNat < 256 := a.isLt
    have hb : b.toNat < 256 := b.isLt
    omega
  · have hsum : byteSum P = byteSum Q := (hPQ.map BitVec.toNat).sum_eq
    rw [checksumOf, checksumOf, hsum]

/-! ### Reading a frame -/

theorem pairTest_complByte (c : Byte) : pairTest c (complByte c) = true :=
  (pairTest_iff_eq_complByte c _).2 rfl

/-- Reading the frame of a payload gives it back with what follows (R101 to R105). -/
theorem parseFrame_frame {P : List Byte} (hP : P.length ≤ 252) (rest : List Byte) :
    parseFrame (frame P ++ rest) = .ok (P, rest) := by
  have hlen : (sizeByte P.length).toNat - framingBytes = P.length := by
    rw [sizeByte_toNat hP, framingBytes, Nat.add_sub_cancel]
  have hfits : ¬ (sizeByte P.length).toNat < framingBytes := by
    rw [sizeByte_toNat hP, framingBytes]
    omega
  rw [frame_eq_cons hP, List.cons_append, List.cons_append, List.append_assoc, parseFrame]
  simp [hlen, hfits, pairTest_complByte, foldl_accByte_pair]

/-- The Size byte of a frame that was read is the payload's. -/
theorem eq_sizeByte_of_toNat {size : Byte} {n : Nat} (hn : size.toNat = n + 3) : size = sizeByte n ∧ n ≤ 252 := by
  have hlt : size.toNat < 256 := size.isLt
  have hle : n ≤ 252 := by omega
  exact ⟨BitVec.eq_of_toNat_eq (by rw [hn, sizeByte_toNat hle]), hle⟩

/-- What is read as a frame begins with exactly that frame. -/
theorem eq_frame_of_parseFrame {bytes P rest : List Byte} (h : parseFrame bytes = .ok (P, rest)) :
    bytes = frame P ++ rest ∧ P.length ≤ 252 := by
  rcases bytes with _ | ⟨size, _ | ⟨check, l⟩⟩
  · cases h
  · cases h
  simp only [parseFrame] at h
  split at h
  · cases h
  rename_i hpair
  split at h
  · cases h
  rename_i hsize
  split at h
  · cases h
  rename_i c after hdrop
  split at h
  · rename_i hsum
    obtain ⟨rfl, rfl⟩ := Prod.mk.inj (Except.ok.inj h)
    obtain rfl := (pairTest_iff_eq_complByte size check).1 (by simpa using hpair)
    have hl : l = l.take (size.toNat - framingBytes) ++ c :: after := by rw [← hdrop, List.take_append_drop]
    have hle : size.toNat - framingBytes ≤ l.length := by
      have := congrArg List.length hdrop
      simp at this
      omega
    have hlen : (l.take (size.toNat - framingBytes)).length = size.toNat - framingBytes := by
      rw [List.length_take, Nat.min_eq_left hle]
    generalize l.take (size.toNat - framingBytes) = P at *
    obtain ⟨rfl, hP⟩ := eq_sizeByte_of_toNat (size := size) (n := P.length) (by rw [framingBytes] at *; omega)
    rw [foldl_accByte_pair] at hsum
    exact ⟨by rw [frame_eq_cons hP, hl, hsum]; simp, hP⟩
  · cases h

/-- Settles O52. -/
theorem frameFormatRoundTrips : Obligations.FrameFormatRoundTrips :=
  ⟨fun _ rest hP => parseFrame_frame hP rest, fun _ _ _ h => eq_frame_of_parseFrame h⟩

end Sys2Proof
end

section
/-! PROOFS. Moves and steps (`43_system.md` R233): what a step does by the kind of the next move, and the statements about
it. -/

namespace Sys2Proof.Machine

/-! ### One step -/

/-- With a move to come a step takes it off the program and makes it. -/
theorem step_of_program {s : State} {m : Move} {rest : List Move} (h : s.program = m :: rest) :
    step s = perform m { s with program := rest } := by
  simp [step, h]

theorem step_of_no_program {s : State} (h : s.program = []) : step s = idleStep s := by
  simp [step, h]

theorem perform_call_of_ok {s : State} {c : Call} {i : Instr} (h : decode s c = .ok i) :
    perform (.call c) s = exec i s := by
  simp [perform, h]

theorem perform_call_of_error {s : State} {c : Call} {r : Reject} (h : decode s c = .error r) :
    perform (.call c) s = .refused (.undecodable r) := by
  simp [perform, h]

/-- Decoding reads no move to come. -/
theorem decode_program (s : State) (c : Call) (l : List Move) : decode { s with program := l } c = decode s c := rfl

/-- Settles O54: by the kind of the next move. -/
theorem stepRunsTheDecodedOperation : Obligations.StepRunsTheDecodedOperation := by
  intro s rest
  refine ⟨fun c i hp hd => ?_, fun c r hp hd => ?_, fun p off v hp => ?_, fun p off hp => ?_⟩
  · rw [step_of_program hp]; exact perform_call_of_ok (by rwa [decode_program])
  · rw [step_of_program hp]; exact perform_call_of_error (by rwa [decode_program])
  · exact step_of_program hp
  · exact step_of_program hp

/-! ### A step with no move left -/

/-- The call TX.ADV names the row that a transmit-ready event runs. -/
theorem txAdv_of_decode {s : State} {i : Instr} (h : decode s ⟨.txAdv, []⟩ = .ok i) : txAdv s = exec i s := by
  have hi : txInstr s = i := Except.ok.inj h
  rw [txAdv_eq_exec, hi]

/-- Settles O55: of the two events at most one is to be served, so the free bit is not asked. -/
theorem idleMachineServesHeldEvents : Obligations.IdleMachineServesHeldEvents := by
  intro s hp
  rw [step_of_no_program hp]
  refine ⟨fun htx hrx => ?_, fun i htx hrx hd => ?_, fun htx hrx => ?_⟩
  · simp [idleStep, htx, hrx]
  · simp [idleStep, htx, hrx, txAdv_of_decode hd]
  · simp [idleStep, htx, hrx, exec]

end Sys2Proof.Machine
end

section
/-! PROOFS. What an operation can touch, said once: every operation is made of a few kinds of write, and its footprint says
which of them it may make. The statements that hold of every operation or every step (the fixed configuration, the canonical
memory, the capacities) follow from the kinds of write alone. -/

namespace Sys2Proof.Machine

/-! ### Footprints -/

/-- The events of the two byte streams (R60). -/
def Event.isWire : Event → Bool
  | .wireOut _ | .wireIn _ => true
  | _ => false

/-- What an operation may touch: the position of TX, the position of RX, the byte streams, the packets of which owners. -/
structure Footprint where
  /-- `tx_state`, `tx_pkt` and `tx_off`. -/
  tx : Bool
  /-- `rx_state`, `rx_pkt`, `rx_off` and `rx_size`. -/
  rx : Bool
  /-- WIRE_OUT and WIRE_IN. -/
  wire : Bool
  /-- Whose packets. -/
  owners : Owner → Bool

/-- One write within a footprint. -/
inductive Touch (f : Footprint) : State → State → Prop
  /-- An event. -/
  | emit (s : State) (e : Event) (h : e.isWire = true → f.wire = true) : Touch f s (s.emit e)
  /-- The fields that no footprint tells apart. -/
  | minor (s t : State)
      (h : t = { s with
        txCsum := t.txCsum, rxCsum := t.rxCsum, chanOvr := t.chanOvr, chanRxbuf := t.chanRxbuf
        txrdyPending := t.txrdyPending, rxrdyPending := t.rxrdyPending, irqTxEn := t.irqTxEn, irqRxEn := t.irqRxEn
        result := t.result, storeInput := t.storeInput, freeCtr := t.freeCtr }) : Touch f s t
  | tx (s : State) (st : TxState) (pkt : Option Handle) (off : Option Nat) (h : f.tx = true) :
      Touch f s { s with txState := st, txPkt := pkt, txOff := off }
  | rx (s : State) (st : RxState) (pkt : Option Handle) (off : Option Nat) (size : Option Byte) (h : f.rx = true) :
      Touch f s { s with rxState := st, rxPkt := pkt, rxOff := off, rxSize := size }
  /-- One packet, the memory kept canonical. -/
  | packets (s : State) (p : Handle) (m : Memory) (howner : f.owners (s.packets.ownerOf p) = true)
      (hother : ∀ q, q ≠ p → lookup q.id m = lookup q.id s.packets) (hwf : s.packets.wf = true → m.wf = true) :
      Touch f s { s with packets := m }
  /-- A queue, made no longer or kept within its capacity. -/
  | queue (s : State) (q : QName) (l : List Handle)
      (h : l.length ≤ (s.queue q).length ∨ l.length ≤ s.queueCap q) : Touch f s (s.setQueue q l)
  /-- SYS.INIT. -/
  | init (s t : State) (h : s.initialised = false) (hparams : t.params = s.params) (hpackets : t.packets = s.packets)
      (htxq : t.txq = []) (hrxq : t.rxq = []) : Touch f s t

/-- Any number of writes within a footprint. -/
def Touches (f : Footprint) : State → State → Prop := Relation.ReflTransGen (Touch f)

/-- An operation that answers only states reached by writes within a footprint. -/
def Reaches (f : Footprint) (s : State) (r : Res) : Prop := ∀ t, r = .next t → Touches f s t

/-! ### The shared operations write within a footprint -/

section
variable {f : Footprint} {s t : State}

theorem Touches.refl (f : Footprint) (s : State) : Touches f s s := Relation.ReflTransGen.refl

theorem Touches.then {u : State} (h : Touches f s t) (hu : Touch f t u) : Touches f s u :=
  Relation.ReflTransGen.tail h hu

theorem Touches.minor {u : State} (h : Touches f s t)
    (hu : u = { t with
      txCsum := u.txCsum, rxCsum := u.rxCsum, chanOvr := u.chanOvr, chanRxbuf := u.chanRxbuf
      txrdyPending := u.txrdyPending, rxrdyPending := u.rxrdyPending, irqTxEn := u.irqTxEn, irqRxEn := u.irqRxEn
      result := u.result, storeInput := u.storeInput, freeCtr := u.freeCtr }) : Touches f s u :=
  h.then (.minor t u hu)

variable (h : Touches f s t)
include h

theorem Touches.answer (r : Result) : Touches f s (t.answer r) := h.minor rfl

theorem Touches.emit {e : Event} (he : e.isWire = true → f.wire = true) : Touches f s (t.emit e) :=
  h.then (.emit t e he)

theorem Touches.raise (e : ErrorOutcome) : Touches f s (t.raise e) := h.emit fun he => nomatch he

theorem Touches.setAcc (a : Acc) (v : Option Byte) : Touches f s (t.setAcc a v) := by
  cases a <;> exact h.minor rfl

theorem Touches.accRead (a : Acc) : Touches f s (t.accRead a) := by
  unfold State.accRead
  split
  · exact h
  · exact h.minor rfl

theorem Touches.accAdd (a : Acc) (b : Byte) : Touches f s (t.accAdd a b) := (h.accRead a).setAcc a _

theorem Touches.enterHandler (c : Source) : Touches f s (t.enterHandler c) := by
  cases c <;> exact h.minor rfl

theorem Touches.raiseEvent (c : Source) : Touches f s (t.raiseEvent c) := by
  cases c <;> exact h.minor rfl

theorem Touches.setEnable (c : Source) (b : Bool) : Touches f s (t.setEnable c b) := by
  cases c <;> exact h.minor rfl

theorem Touches.critEnter : Touches f s t.critEnter := (h.setEnable .txrdy false).setEnable .rxrdy false

theorem Touches.critLeave : Touches f s t.critLeave := (h.setEnable .txrdy true).setEnable .rxrdy true

theorem Touches.clearOverrun : Touches f s t.clearOverrun :=
  Touches.emit (h.minor (u := { t with chanOvr := false }) rfl) fun he => nomatch he

theorem Touches.spendAnswer : Touches f s t.spendAnswer := by
  unfold State.spendAnswer
  split <;> exact h.minor rfl

theorem Touches.tryAddTail (q : QName) (p : Handle) : Touches f s (t.tryAddTail q p) := by
  cases hroom : t.hasRoom q with
  | true =>
    have hlt : (t.queue q).length < t.queueCap q := of_decide_eq_true hroom
    have hlen : (t.queue q ++ [p]).length ≤ t.queueCap q := by simpa using hlt
    rw [State.tryAddTail_of_room hroom]
    exact (h.then (.queue t q _ (.inr hlen))).emit fun he => nomatch he
  | false =>
    rw [State.tryAddTail_of_full hroom]
    exact h.emit fun he => nomatch he

theorem Touches.removeHead (q : QName) : Touches f s (t.removeHead q) :=
  (h.then (.queue t q _ (.inl (by simp)))).emit fun he => nomatch he

theorem Touches.removeTail (q : QName) : Touches f s (t.removeTail q) :=
  h.then (.queue t q _ (.inl (by simp)))

theorem Touches.tx {u : State} (htx : f.tx = true)
    (hu : u = { t with txState := u.txState, txPkt := u.txPkt, txOff := u.txOff }) : Touches f s u := by
  rw [hu]
  exact h.then (.tx t _ _ _ htx)

theorem Touches.rx {u : State} (hrx : f.rx = true)
    (hu : u = { t with rxState := u.rxState, rxPkt := u.rxPkt, rxOff := u.rxOff, rxSize := u.rxSize }) :
    Touches f s u := by
  rw [hu]
  exact h.then (.rx t _ _ _ _ hrx)

theorem Touches.seedCandidate (hrx : f.rx = true) (b : Byte) : Touches f s (t.seedCandidate b) :=
  Touches.rx (h.setAcc .rx (some b)) hrx rfl

theorem Touches.endReceive (hrx : f.rx = true) : Touches f s t.endReceive :=
  Touches.rx (t := t.setAcc .rx none) (h.setAcc .rx none) hrx rfl

theorem Touches.requestPacket {o : Owner} (hstore : f.owners .store = true) (ho : o ≠ .store) (d : Nat) :
    Touches f s (t.requestPacket o d) := by
  unfold State.requestPacket
  split
  · rename_i p hp
    refine Touches.emit (h.spendAnswer.then (.packets _ p _ ?_ (fun q hq => ?_) fun hwf => ?_)) fun he => nomatch he
    · rwa [State.spendAnswer_packets, State.storeAnswer_owner hp]
    · rw [State.spendAnswer_packets, Memory.lookup_obtain_ne hq]
    · exact Memory.wf_obtain (by rwa [State.spendAnswer_packets] at hwf) p ho _
  · exact h.spendAnswer.emit fun he => nomatch he

/-! ### The accesses and the callers of the shared operations -/

theorem Touches.next : Reaches f s (.next t) := by
  rintro _ ⟨⟩
  exact h

theorem Touches.reaches {r : Res} (hr : Reaches f t r) : Reaches f s r :=
  fun u hu => Relation.ReflTransGen.trans h (hr u hu)

omit h

theorem reaches_fault (e : Fault) : Reaches f s (.fault e) := fun _ h => nomatch h

theorem reaches_refused (e : Refusal) : Reaches f s (.refused e) := fun _ h => nomatch h

theorem Reaches.andThen {r : Res} {k : State → Res} (hr : Reaches f s r)
    (hk : ∀ u, Touches f s u → Reaches f s (k u)) : Reaches f s (andThen r k) := by
  intro t ht
  obtain ⟨u, hu, ht⟩ := andThen_eq_next ht
  exact hk u (hr u hu) t ht

theorem Reaches.whenReady {u : State} {r : Res} (hr : Reaches f s r) : Reaches f s (whenReady u r) :=
  fun t ht => hr t (whenReady_eq_next ht).2

theorem Reaches.whenSelected {g : Bool} {r : Res} (hr : Reaches f s r) : Reaches f s (whenSelected g r) :=
  fun t ht => hr t (whenSelected_eq_next ht).2

theorem reaches_inSection {body : State → Res} (hbody : ∀ u, Touches f s u → Reaches f s (body u)) :
    Reaches f s (inSection s body) :=
  (hbody _ ((Touches.refl f s).critEnter.answer .none)).andThen fun _ hu => hu.critLeave.next

theorem reaches_rxRowRun {row : RxRow} {b : Byte} {body : State → Res}
    (hbody : ∀ u, Touches f s u → Reaches f s (body u)) : Reaches f s (rxRowRun row b s body) :=
  (hbody _ ((Touches.refl f s).answer .none)).whenSelected.whenReady

theorem reaches_serveTx {row : TxRow} {body : State → Res}
    (hbody : ∀ u, Touches f s u → Reaches f s (body u)) : Reaches f s (serveTx row s body) := by
  refine (Reaches.whenSelected ?_).whenReady
  split
  · exact hbody _ (((Touches.refl f s).enterHandler .txrdy).answer .none)
  · exact reaches_refused _

include h

theorem Touches.memWrite {o : Owner} (ho : f.owners o = true) (p : Handle) (i : Nat) (v : Byte) :
    Reaches f s (t.memWrite o p i v) := by
  intro u hu
  obtain ⟨⟨k, hk, rfl, hi⟩, rfl⟩ := State.memWrite_eq_next hu
  refine h.then (.packets t p _ ?_ (fun q hq => Memory.lookup_setCell_ne hq _ i v) fun hwf => ?_)
  · simpa [Memory.ownerOf, hk] using ho
  · refine Memory.wf_setCell hwf p i v fun n hn => ?_
    have hlen : k.len = n := by simpa [Memory.lenOf, hk] using hn
    rwa [← hlen]

theorem Touches.transfer {src dst : Owner} (hsrc : f.owners src = true) (hdst : dst ≠ .store) (p : Handle) :
    Reaches f s (t.transfer p src dst) := by
  intro u hu
  obtain ⟨⟨-, rfl⟩, rfl⟩ := State.transfer_eq_next hu
  exact h.then (.packets t p _ hsrc (fun q hq => Memory.lookup_setOwner_ne hq _ dst) fun hwf =>
    Memory.wf_setOwner hwf p hdst)

theorem Touches.returnPacket {o : Owner} (ho : f.owners o = true) (p : Handle) :
    Reaches f s (t.returnPacket o p) := by
  intro u hu
  obtain ⟨⟨-, rfl⟩, rfl⟩ := State.returnPacket_eq_next hu
  exact Touches.emit (h.then (.packets t p _ ho (fun q hq => Memory.lookup_release_ne hq _) fun hwf =>
    Memory.wf_release hwf p)) fun he => nomatch he

theorem Touches.runCallback (p : Handle) : Reaches f s (t.runCallback p) := by
  intro u hu
  obtain ⟨bytes, -, -, rfl⟩ := State.runCallback_eq_next hu
  exact h.emit fun he => nomatch he

end

/-! ### The rows of the three families -/

section
variable {f : Footprint} (s : State)

/-- The nine rows of RX.BYTE touch the position of RX and packets of the store and of RX, and no byte stream. -/
theorem reaches_rxRow (hrx : f.rx = true) (hstore : f.owners .store = true) (hown : f.owners .rx = true)
    (row : RxRow) (b : Byte) : Reaches f s (exec (row.instr b) s) := by
  cases row with
  | idleAccept => exact reaches_rxRowRun fun u hu => (hu.seedCandidate hrx b).next
  | idleDiscard => exact reaches_rxRowRun fun u hu => (hu.raise _).next
  | awaitValid =>
    rw [RxRow.instr, exec, execRxAwaitValid]
    refine reaches_rxRowRun fun u hu => ?_
    split
    · rename_i size _
      have hasked : Touches f s (u.requestPacket .rx (u.params.requestLength size)) :=
        hu.requestPacket hstore (by decide) _
      exact (Touches.rx ((hasked.accRead .rx).setAcc .rx (some (accByte (u.accValue .rx) b))) hrx rfl).next
    · exact reaches_fault _
  | awaitNobuf =>
    rw [RxRow.instr, exec, execRxAwaitNobuf]
    refine reaches_rxRowRun fun u hu => ?_
    split
    · exact ((((hu.requestPacket (o := .rx) hstore (by decide) _).accRead .rx).raise _).endReceive hrx).next
    · exact reaches_fault _
  | awaitResync => exact reaches_rxRowRun fun u hu => (((hu.accRead .rx).raise _).seedCandidate hrx b).next
  | bodyStore =>
    rw [RxRow.instr, exec, execRxBodyStore]
    refine reaches_rxRowRun fun u hu => ?_
    split
    · exact (hu.memWrite hown _ _ b).andThen fun v hv => (Touches.rx (hv.accAdd .rx b) hrx rfl).next
    · exact reaches_fault _
  | bodyGood =>
    rw [RxRow.instr, exec, execRxBodyGood]
    refine reaches_rxRowRun fun u hu => ?_
    split
    · exact ((hu.accRead .rx).runCallback _).andThen fun v hv =>
        ((hv.tryAddTail .rxq _).transfer hown (by decide) _).andThen fun w hw => (hw.endReceive hrx).next
    · exact reaches_fault _
  | bodyGoodQfull =>
    rw [RxRow.instr, exec, execRxBodyGoodQfull]
    refine reaches_rxRowRun fun u hu => ?_
    split
    · exact ((hu.accRead .rx).runCallback _).andThen fun v hv =>
        (((hv.tryAddTail .rxq _).raise _).returnPacket hown _).andThen fun w hw => (hw.endReceive hrx).next
    · exact reaches_fault _
  | bodyBad =>
    rw [RxRow.instr, exec, execRxBodyBad]
    refine reaches_rxRowRun fun u hu => ?_
    split
    · exact (((hu.accRead .rx).raise _).returnPacket hown _).andThen fun w hw => (hw.endReceive hrx).next
    · exact reaches_fault _

/-- The rows of TX.ADV touch the position of TX, the wire-out stream and packets of TX. -/
theorem reaches_advRow (htx : f.tx = true) (hwire : f.wire = true) (hown : f.owners .tx = true) (row : TxRow) :
    Reaches f s (exec row.instr s) := by
  cases row with
  | idle => exact reaches_serveTx fun u hu => hu.next
  | sizecheck =>
    rw [TxRow.instr, exec, execTxAdvSizecheck]
    exact reaches_serveTx fun u hu => (Touches.emit (Touches.tx (hu.accAdd .tx _) htx rfl) fun _ => hwire).next
  | body =>
    rw [TxRow.instr, exec, execTxAdvBody]
    refine reaches_serveTx fun u hu => ?_
    split
    · split
      · exact (Touches.emit (Touches.tx (hu.accAdd .tx _) htx rfl) fun _ => hwire).next
      · exact reaches_fault _
    · exact reaches_fault _
  | trailer =>
    rw [TxRow.instr, exec, execTxAdvTrailer]
    refine reaches_serveTx fun u hu => ?_
    split
    · exact (((hu.accRead .tx).emit fun _ => hwire).returnPacket hown _).andThen fun v hv =>
        (Touches.tx (hv.setAcc .tx none) htx rfl).next
    · exact reaches_fault _

/-- A rejected submission only puts its outcome on the trace. -/
theorem reaches_submitReject (p : Option Handle) : Reaches f s (exec (.txSubmitReject p) s) := by
  refine Reaches.whenReady ?_
  split
  · exact (((Touches.refl f s).raise _).answer _).next
  · exact (((Touches.refl f s).raise _).answer _).next
  · split
    · exact (((Touches.refl f s).raise _).answer _).next
    · exact reaches_fault _
  · exact reaches_refused _

theorem reaches_releaseHeld (htx : f.tx = true) (hown : f.owners .tx = true) (p : Handle) :
    Reaches f s (s.releaseHeld p) := by
  unfold State.releaseHeld
  split
  · exact (Touches.refl f s).next
  · split
    · exact reaches_refused _
    · exact ((Touches.refl f s).returnPacket hown _).andThen fun u hu => (Touches.tx hu htx rfl).next

theorem reaches_submitAccept (htx : f.tx = true) (hwire : f.wire = true) (hown : ∀ o, f.owners o = true) (p : Handle) :
    Reaches f s (exec (.txSubmitAccept p) s) := by
  refine (Reaches.whenSelected ?_).whenReady
  split
  · split
    · refine (reaches_releaseHeld s htx (hown _) p).andThen fun u hu =>
        (hu.transfer (hown _) (by decide) p).andThen fun v hv => ?_
      exact (Touches.answer (Touches.emit (Touches.tx (hv.setAcc .tx _) htx rfl) fun _ => hwire) _).next
    · exact reaches_fault _
  · exact reaches_fault _

end

/-! ### Every operation keeps to its footprint -/

section
variable {f : Footprint}

theorem reaches_rxByte (s : State) (hrx : f.rx = true) (hstore : f.owners .store = true) (hown : f.owners .rx = true)
    (b : Byte) : Reaches f s (rxByte b s) := by
  rw [rxByte_eq_exec, rxInstr_eq_instr]
  exact reaches_rxRow s hrx hstore hown _ b

theorem reaches_txAdv (s : State) (htx : f.tx = true) (hwire : f.wire = true) (hown : f.owners .tx = true) :
    Reaches f s (txAdv s) := by
  rw [txAdv_eq_exec, txInstr_eq_instr]
  exact reaches_advRow s htx hwire hown _

theorem reaches_ovrClear (s : State) : Reaches f s (execRxOvrClear s) :=
  (((Touches.refl f s).clearOverrun.answer .none).next).whenSelected.whenReady

variable (hrx : f.rx = true) (hwire : f.wire = true) (hstore : f.owners .store = true) (hown : f.owners .rx = true)
include hrx hwire hstore hown

theorem reaches_drainLoop (n : Nat) (s : State) : Reaches f s (drainLoop n s) := by
  induction n generalizing s with
  | zero => exact (Touches.refl f s).next
  | succ n ih =>
    unfold drainLoop
    split
    · exact (Touches.refl f s).next
    · rename_i b rest _
      have hread : Touches f s (s.takeByte b rest) :=
        Touches.emit ((Touches.refl f s).minor (u := { s with chanRxbuf := rest }) rfl) fun _ => hwire
      exact (hread.reaches (reaches_rxByte _ hrx hstore hown b)).andThen fun u hu => hu.reaches (ih u)

theorem reaches_rxDrain (s : State) : Reaches f s (execRxDrain s) := by
  refine Reaches.whenReady ?_
  split
  · have hserve : Touches f s ((s.enterHandler .rxrdy).answer .none) :=
      ((Touches.refl f s).enterHandler .rxrdy).answer .none
    refine (hserve.reaches (reaches_drainLoop hrx hwire hstore hown _ _)).andThen fun t ht => ?_
    split
    · exact ht.reaches (reaches_ovrClear t)
    · exact ht.next
  · exact reaches_refused _

end

/-- What each operation may touch. -/
def footprint (i : Instr) : Footprint where
  tx := isTxRow i || i == .fgProcess || i == .envTxrdy
  rx := isRxByteRow i || i == .rxDrain || i == .envRxrdy
  wire := !isRxByteRow i
  owners o := !(isRxByteRow i || i == .rxDrain) || o == .store || o == .rx

theorem reaches_fgProcess {f : Footprint} (s : State) (htx : f.tx = true) (hwire : f.wire = true)
    (hown : ∀ o, f.owners o = true) : Reaches f s (execFgProcess s) := by
  refine (reaches_inSection fun u hu => ?_).whenReady
  split
  · split
    · exact hu.next
    · rename_i p l _
      have hhead := hu.removeHead .txq
      simp only
      split
      · exact (hhead.reaches (reaches_submitAccept _ htx hwire hown p)).andThen fun v hv => (hv.answer .none).next
      · exact (hhead.reaches (reaches_submitReject _ (some p))).andThen fun v hv =>
          (hv.returnPacket (hown _) p).andThen fun w hw => (hw.answer .none).next
  · exact hu.next

theorem reaches_sysInit {f : Footprint} (s : State) (n m : Nat) (cb : Callback) :
    Reaches f s (execSysInit n m cb s) := by
  unfold execSysInit
  split
  · exact reaches_refused _
  · split
    · exact reaches_refused _
    · exact Touches.next ((Touches.refl f s).then (.init s _ (Bool.eq_false_iff.2 ‹_›) rfl rfl rfl rfl))

/-- Every operation keeps to its footprint. -/
theorem exec_reaches (i : Instr) (s : State) : Reaches (footprint i) s (exec i s) := by
  have h := Touches.refl (footprint i) s
  cases i
  case csumSeed a b => exact (((h.setAcc a (some b)).answer .none).next).whenReady
  case csumAcc a b => exact (((h.accAdd a b).answer .none).next).whenReady
  case csumCompl a => exact (((h.accRead a).answer _).next).whenReady
  case csumPair a b => exact (((h.accRead a).answer _).next).whenReady
  case csumMatch a b => exact (((h.accRead a).answer _).next).whenReady
  case txSubmitReject p => exact reaches_submitReject s p
  case txSubmitAccept p => exact reaches_submitAccept s rfl rfl (fun _ => rfl) p
  case txAdvIdle => exact reaches_advRow s rfl rfl rfl .idle
  case txAdvSizecheck => exact reaches_advRow s rfl rfl rfl .sizecheck
  case txAdvBody => exact reaches_advRow s rfl rfl rfl .body
  case txAdvTrailer => exact reaches_advRow s rfl rfl rfl .trailer
  case rxIdleAccept b => exact reaches_rxRow s rfl rfl rfl .idleAccept b
  case rxIdleDiscard b => exact reaches_rxRow s rfl rfl rfl .idleDiscard b
  case rxAwaitValid b => exact reaches_rxRow s rfl rfl rfl .awaitValid b
  case rxAwaitNobuf b => exact reaches_rxRow s rfl rfl rfl .awaitNobuf b
  case rxAwaitResync b => exact reaches_rxRow s rfl rfl rfl .awaitResync b
  case rxBodyStore b => exact reaches_rxRow s rfl rfl rfl .bodyStore b
  case rxBodyGood b => exact reaches_rxRow s rfl rfl rfl .bodyGood b
  case rxBodyGoodQfull b => exact reaches_rxRow s rfl rfl rfl .bodyGoodQfull b
  case rxBodyBad b => exact reaches_rxRow s rfl rfl rfl .bodyBad b
  case rxDrain => exact reaches_rxDrain rfl rfl rfl rfl s
  case rxOvrClear => exact reaches_ovrClear s
  case sysInit n m cb => exact reaches_sysInit s n m cb
  case sysCritEnter => exact ((h.critEnter.answer .none).next).whenReady
  case sysCritLeave => exact ((h.critLeave.answer .none).next).whenReady
  case fgSend p =>
    refine (reaches_inSection fun u hu => ?_).whenReady
    split
    · exact reaches_fault _
    · split
      · exact ((hu.tryAddTail .txq p).transfer rfl (by decide) p).andThen fun v hv => (hv.answer _).next
      · exact ((hu.tryAddTail .txq p).answer _).next
  case fgProcess => exact reaches_fgProcess s rfl rfl fun _ => rfl
  case fgRecv =>
    refine (reaches_inSection fun u hu => ?_).whenReady
    split
    · exact ((hu.removeHead .rxq).answer _).next
    · exact ((hu.removeHead .rxq).transfer rfl (by decide) _).andThen fun v hv => (hv.answer _).next
  case fgQuery q f => exact (reaches_inSection fun u hu => (hu.answer _).next).whenReady
  case storeRequest c d =>
    refine Reaches.whenReady ?_
    split
    · exact reaches_refused _
    · exact ((h.requestPacket rfl (ownerOfCtx_ne_store c) d).answer _).next
  case storeReturn c p => exact ((h.answer .none).returnPacket rfl p).whenReady
  case qAddtail q p => exact (((h.tryAddTail q p).answer _).next).whenReady
  case qRemhead q => exact (((h.removeHead q).answer _).next).whenReady
  case qRemtail q => exact (((h.removeTail q).answer _).next).whenReady
  case qIsempty q => exact ((h.answer _).next).whenReady
  case qIsfull q => exact ((h.answer _).next).whenReady
  case qSize q => exact ((h.answer _).next).whenReady
  case chWrite b => exact ((Touches.answer (h.emit (e := .wireOut b) fun _ => rfl) .none).next).whenReady
  case chAvail => exact ((h.answer _).next).whenReady
  case chRead =>
    refine Reaches.whenReady ?_
    split
    · exact reaches_fault _
    · rename_i b rest _
      exact (Touches.answer (Touches.emit (e := .wireIn b) (h.minor (u := { s with chanRxbuf := rest }) rfl)
        fun _ => rfl) _).next
  case chOvrclr => exact ((h.clearOverrun.answer _).next).whenReady
  case chIrqen src on => exact (((h.setEnable src on).answer _).next).whenReady
  case envRxbyte b =>
    exact (((Touches.raiseEvent (h.minor (u := { s with chanRxbuf := s.chanRxbuf ++ [b] }) rfl) _).answer _).next).whenReady
  case envRxlose => exact ((h.minor (u := s.setOverrun.answer .none) rfl).next).whenReady
  case envTxrdy =>
    refine Reaches.whenReady ?_
    split
    · exact (h.raiseEvent .txrdy).reaches (reaches_txAdv _ rfl rfl rfl)
    · exact ((h.raiseEvent .txrdy).answer _).next
  case envRxrdy =>
    refine Reaches.whenReady ?_
    split
    · exact (h.raiseEvent .rxrdy).reaches (reaches_rxDrain rfl rfl rfl rfl _)
    · exact ((h.raiseEvent .rxrdy).answer _).next

end Sys2Proof.Machine
end

section
/-! PROOFS. What follows from the footprint of an operation, and the statements about every operation and every step that
rest on it: the fixed configuration, the canonical memory, the capacities of the queues. -/

namespace Sys2Proof.Machine

/-! ### What a footprint leaves alone -/

/-- A reflexive and transitive relation that every write of a footprint keeps to, any number of writes keeps to. -/
theorem Touches.of_touch {f : Footprint} {R : State → State → Prop} (hrefl : ∀ s, R s s)
    (htrans : ∀ {s t u}, R s t → R t u → R s u) (htouch : ∀ {s t}, Touch f s t → R s t) {s t : State}
    (h : Touches f s t) : R s t := by
  induction h with
  | refl => exact hrefl _
  | tail _ hu ih => exact htrans ih (htouch hu)

/-- What SYS.INIT fixes (R38, R39). -/
def ConfigurationKept (s t : State) : Prop :=
  t.params = s.params ∧
    (s.initialised = true →
      t.initialised = true ∧ t.rxCallback = s.rxCallback ∧ t.txqCap = s.txqCap ∧ t.rxqCap = s.rxqCap)

theorem ConfigurationKept.refl (s : State) : ConfigurationKept s s := ⟨rfl, fun h => ⟨h, rfl, rfl, rfl⟩⟩

theorem ConfigurationKept.trans {s t u : State} (h : ConfigurationKept s t) (h' : ConfigurationKept t u) :
    ConfigurationKept s u := by
  refine ⟨h'.1.trans h.1, fun hi => ?_⟩
  obtain ⟨hinit, hcb, htxq, hrxq⟩ := h.2 hi
  obtain ⟨hinit', hcb', htxq', hrxq'⟩ := h'.2 hinit
  exact ⟨hinit', hcb'.trans hcb, htxq'.trans htxq, hrxq'.trans hrxq⟩

theorem Touch.configurationKept {f : Footprint} {s t : State} (h : Touch f s t) : ConfigurationKept s t := by
  cases h with
  | minor _ ht => rw [ht]; exact ConfigurationKept.refl s
  | queue q l _ => exact ⟨by simp, fun hi => by simpa using hi⟩
  | init _ hi hparams => exact ⟨hparams, fun hi' => absurd (hi.symm.trans hi') (by decide)⟩
  | _ => exact ConfigurationKept.refl s

theorem Touches.configurationKept {f : Footprint} {s t : State} (h : Touches f s t) : ConfigurationKept s t :=
  h.of_touch ConfigurationKept.refl ConfigurationKept.trans Touch.configurationKept

theorem Touches.initialised {f : Footprint} {s t : State} (h : Touches f s t) (hi : s.initialised = true) :
    t.initialised = true :=
  (h.configurationKept.2 hi).1

/-- Settles O3: only SYS.INIT writes the configuration, and on an initialised block it does not run. -/
theorem configurationIsFixedAfterInit : Obligations.ConfigurationIsFixedAfterInit :=
  fun i s t h => (exec_reaches i s t h).configurationKept

theorem Touch.wf {f : Footprint} {s t : State} (h : Touch f s t) (hwf : s.packets.wf = true) : t.packets.wf = true := by
  cases h with
  | minor _ ht => rw [ht]; exact hwf
  | packets _ _ _ _ hm => exact hm hwf
  | queue q l _ => rwa [State.setQueue_packets]
  | init _ _ _ hpackets => rwa [hpackets]
  | _ => exact hwf

theorem Touches.wf {f : Footprint} {s t : State} (h : Touches f s t) : s.packets.wf = true → t.packets.wf = true :=
  h.of_touch (R := fun s t => s.packets.wf = true → t.packets.wf = true) (fun _ h => h)
    (fun h h' hwf => h' (h hwf)) Touch.wf

/-- Both queues within their capacities (R40). -/
def QueuesFit (s : State) : Prop := s.txq.length ≤ s.txqCap ∧ s.rxq.length ≤ s.rxqCap

theorem Touch.queuesFit {f : Footprint} {s t : State} (h : Touch f s t) (hfit : QueuesFit s) : QueuesFit t := by
  obtain ⟨htx, hrx⟩ := hfit
  cases h with
  | minor _ ht => rw [ht]; exact ⟨htx, hrx⟩
  | queue q l hl =>
    cases q with
    | txq => exact ⟨hl.elim (fun h => h.trans htx) id, hrx⟩
    | rxq => exact ⟨htx, hl.elim (fun h => h.trans hrx) id⟩
  | init _ _ _ _ htxq hrxq => simp [QueuesFit, htxq, hrxq]
  | _ => exact ⟨htx, hrx⟩

theorem Touches.queuesFit {f : Footprint} {s t : State} (h : Touches f s t) : QueuesFit s → QueuesFit t :=
  h.of_touch (R := fun s t => QueuesFit s → QueuesFit t) (fun _ h => h) (fun h h' hfit => h' (h hfit)) Touch.queuesFit

/-- The position of TX. -/
def TxKept (s t : State) : Prop :=
  s.initialised = true → t.txState = s.txState ∧ t.txPkt = s.txPkt ∧ t.txOff = s.txOff

/-- The position of RX. -/
def RxKept (s t : State) : Prop :=
  s.initialised = true →
    t.rxState = s.rxState ∧ t.rxPkt = s.rxPkt ∧ t.rxOff = s.rxOff ∧ t.rxSize = s.rxSize

/-- Without leave an operation does not move TX. -/
theorem Touches.txKept {f : Footprint} (htx : f.tx = false) {s t : State} (h : Touches f s t) : TxKept s t := by
  intro hi
  induction h with
  | refl => exact ⟨rfl, rfl, rfl⟩
  | @tail t u ht hu ih =>
    cases hu with
    | minor _ ht => rw [ht]; exact ih
    | queue q l _ => simpa using ih
    | tx _ _ _ hf => exact absurd (htx.symm.trans hf) (by decide)
    | init _ hi' => exact absurd (hi'.symm.trans (Touches.initialised ht hi)) (by decide)
    | _ => exact ih

/-- Without leave an operation does not move RX. -/
theorem Touches.rxKept {f : Footprint} (hrx : f.rx = false) {s t : State} (h : Touches f s t) : RxKept s t := by
  intro hi
  induction h with
  | refl => exact ⟨rfl, rfl, rfl, rfl⟩
  | @tail t u ht hu ih =>
    cases hu with
    | minor _ ht => rw [ht]; exact ih
    | queue q l _ => simpa using ih
    | rx _ _ _ _ hf => exact absurd (hrx.symm.trans hf) (by decide)
    | init _ hi' => exact absurd (hi'.symm.trans (Touches.initialised ht hi)) (by decide)
    | _ => exact ih

/-- A packet whose owner is outside the footprint stays as it is. -/
theorem Touches.lookup_eq {f : Footprint} {s t : State} (h : Touches f s t) {q : Handle}
    (hq : f.owners (s.packets.ownerOf q) = false) : lookup q.id t.packets = lookup q.id s.packets := by
  induction h with
  | refl => rfl
  | @tail t u _ hu ih =>
    cases hu with
    | minor _ ht => rw [ht]; exact ih
    | queue _ l _ => rwa [State.setQueue_packets]
    | packets p m howner hother =>
      have hqp : q ≠ p := by
        rintro rfl
        rw [Memory.ownerOf, ih] at howner
        exact absurd (hq.symm.trans howner) (by decide)
      exact (hother q hqp).trans ih
    | init _ _ _ hpackets => rwa [hpackets]
    | _ => exact ih

/-! ### The byte streams -/

theorem State.wireOut_emit (s : State) (e : Event) :
    (s.emit e).wireOut = s.wireOut ++ (match e with | .wireOut b => [b] | _ => []) := by
  cases e <;> simp [State.wireOut]

theorem State.wireIn_emit (s : State) (e : Event) :
    (s.emit e).wireIn = s.wireIn ++ (match e with | .wireIn b => [b] | _ => []) := by
  cases e <;> simp [State.wireIn]

/-- Without leave an operation of an initialised block puts nothing on either byte stream. -/
theorem Touches.wire_eq {f : Footprint} (hwire : f.wire = false) {s t : State} (h : Touches f s t)
    (hi : s.initialised = true) : t.wireOut = s.wireOut ∧ t.wireIn = s.wireIn := by
  induction h with
  | refl => exact ⟨rfl, rfl⟩
  | @tail t u ht hu ih =>
    cases hu with
    | minor _ ht => rw [ht]; exact ih
    | queue q l _ => simpa [State.wireOut, State.wireIn] using ih
    | emit e he =>
      have hquiet : e.isWire = false := Bool.eq_false_iff.2 fun hw => absurd (hwire.symm.trans (he hw)) (by decide)
      rw [State.wireOut_emit, State.wireIn_emit]
      cases e
      case wireOut | wireIn => cases hquiet
      all_goals simpa using ih
    | init _ hi' => exact absurd (hi'.symm.trans (Touches.initialised ht hi)) (by decide)
    | _ => exact ih

/-! ### Every step -/

theorem fgWrite_touches (f : Footprint) (hown : f.owners .fg = true) (p : Handle) (off : Nat) (v : Byte) (s : State) :
    Reaches f s (fgWrite p off v s) :=
  (((Touches.refl f s).answer .none).memWrite hown p off v).whenReady

theorem fgRead_touches (f : Footprint) (p : Handle) (off : Nat) (s : State) : Reaches f s (fgRead p off s) := by
  refine Reaches.whenReady ?_
  split
  · exact ((Touches.refl f s).answer _).next
  · exact reaches_fault _

/-- A step is the run of an operation, a foreground access of a cell, or nothing, in a state that differs from the one it
starts in by the program and the counter alone. -/
theorem step_eq_next {s t : State} (h : step s = .next t) :
    ∃ l k, (∀ m ∈ l, m ∈ s.program) ∧
      ((∃ i, exec i { s with program := l, freeCtr := k } = .next t ∧
          (i = txInstr s ∨ i = .rxDrain ∨ ∃ c, .call c ∈ s.program ∧ decode s c = .ok i)) ∨
        (∃ p off v, fgWrite p off v { s with program := l } = .next t) ∨
        (∃ p off, fgRead p off { s with program := l } = .next t) ∨ t = s) := by
  cases hp : s.program with
  | nil =>
    rw [step_of_no_program hp] at h
    unfold idleStep at h
    split at h
    · split at h
      · split at h
        · rw [txAdv_eq_exec] at h
          exact ⟨[], s.freeCtr + 1, by simp, .inl ⟨_, by rw [← hp]; exact h, .inl rfl⟩⟩
        · exact ⟨[], s.freeCtr + 1, by simp, .inl ⟨.rxDrain, by rw [← hp]; exact h, .inr (.inl rfl)⟩⟩
      · rw [txAdv_eq_exec] at h
        exact ⟨[], s.freeCtr, by simp, .inl ⟨_, by rw [← hp]; exact h, .inl rfl⟩⟩
    · split at h
      · exact ⟨[], s.freeCtr, by simp, .inl ⟨.rxDrain, by rw [← hp]; exact h, .inr (.inl rfl)⟩⟩
      · cases h
        exact ⟨[], s.freeCtr, by simp, .inr (.inr (.inr rfl))⟩
  | cons m rest =>
    rw [step_of_program hp] at h
    refine ⟨rest, s.freeCtr, fun _ hm => List.mem_cons_of_mem _ hm, ?_⟩
    cases m with
    | call c =>
      cases hd : decode s c with
      | ok i =>
        rw [perform_call_of_ok (by rwa [decode_program])] at h
        exact .inl ⟨i, h, .inr (.inr ⟨c, by simp, hd⟩)⟩
      | error r =>
        rw [perform_call_of_error (by rwa [decode_program])] at h
        cases h
    | write p off v => exact .inr (.inl ⟨p, off, v, h⟩)
    | read p off => exact .inr (.inr (.inl ⟨p, off, h⟩))

/-- A step that answers a next state makes writes of some footprint, from the state with the program and the counter
changed. -/
theorem step_touches {s t : State} (h : step s = .next t) :
    ∃ f l k, Touches f { s with program := l, freeCtr := k } t := by
  obtain ⟨l, k, -, ⟨i, hi, -⟩ | ⟨p, off, v, hw⟩ | ⟨p, off, hr⟩ | rfl⟩ := step_eq_next h
  · exact ⟨_, l, k, exec_reaches i _ t hi⟩
  · exact ⟨footprint .fgProcess, l, s.freeCtr, fgWrite_touches _ rfl p off v _ t hw⟩
  · exact ⟨footprint .fgProcess, l, s.freeCtr, fgRead_touches _ p off _ t hr⟩
  · exact ⟨footprint .fgProcess, _, _, Touches.refl _ _⟩

/-- Settles O59: no kind of write spoils the canonical form. -/
theorem everyStepKeepsTheMemoryCanonical : Obligations.EveryStepKeepsTheMemoryCanonical := by
  intro s t hwf h
  obtain ⟨f, l, k, ht⟩ := step_touches h
  exact ht.wf hwf

/-- Settles O60: no kind of write takes a queue above its capacity. -/
theorem noQueueExceedsItsCapacity : Obligations.NoQueueExceedsItsCapacity := by
  intro s t htxq hrxq h
  obtain ⟨f, l, k, ht⟩ := step_touches h
  exact ht.queuesFit ⟨htxq, hrxq⟩

end Sys2Proof.Machine
end

section
/-! PROOFS. Reset, the critical section, the channel and the queues (`10_state.md` section 9, `43_system.md` sections 1, 2
and 4, `20_memory.md` sections 4 and 5): what each operation answers, as equations, and the statements about them. -/

namespace Sys2Proof.Machine

/-! ### Before and at SYS.INIT -/

/-- SYS.INIT as an equation (R220, R46). -/
theorem exec_sysInit {s : State} (hp : s.params.ok = true) (hi : s.initialised = false) (n m : Nat) (cb : Callback) :
    exec (.sysInit n m cb) s = .next
      { s with
        initialised := true, txqCap := n, txq := [], rxqCap := m, rxq := [], rxCallback := cb
        txState := .idle, txPkt := none, txOff := none, txCsum := none
        rxState := .idle, rxPkt := none, rxOff := none, rxCsum := none, rxSize := none
        irqTxEn := true, irqRxEn := true, trace := [], result := .none } := by
  simp [exec, execSysInit, hp, hi]

/-- Settles O1. -/
theorem initPutsRegistersAtResetValues : Obligations.InitPutsRegistersAtResetValues :=
  fun _ n m cb hp hi => exec_sysInit hp hi n m cb

theorem whenReady_of_uninitialised {s : State} (hp : s.params.ok = true) (hi : s.initialised = false) (r : Res) :
    whenReady s r = .refused .uninitialised := by
  simp [whenReady, hp, hi]

/-- Every operation but SYS.INIT runs only when the block is ready. -/
theorem exists_whenReady {i : Instr} (hi : ∀ n m cb, i ≠ .sysInit n m cb) (s : State) :
    ∃ r, exec i s = whenReady s r := by
  cases i
  case sysInit n m cb => exact absurd rfl (hi n m cb)
  all_goals exact ⟨_, rfl⟩

/-- Settles O2: SYS.INIT alone is not guarded by readiness, and it has its own test. -/
theorem onlyInitRunsBeforeInitAndOnlyOnce : Obligations.OnlyInitRunsBeforeInitAndOnlyOnce := by
  refine ⟨fun i s hp hinit hi => ?_, fun s n m cb hp hinit => ?_⟩
  · obtain ⟨r, hr⟩ := exists_whenReady hi s
    rw [hr, whenReady_of_uninitialised hp hinit]
  · simp [exec, execSysInit, hp, hinit]

/-! ### An accumulator that holds no value -/

section
variable {s : State} {a : Acc} (h : s.acc a = none)
include h

theorem State.accRead_of_none : s.accRead a = { s with freeCtr := s.freeCtr + 1 } := by
  simp [State.accRead, h]

theorem State.accValue_of_none : s.accValue a = Config.freeByte s.freeCtr := by
  simp [State.accValue, h]

end

/-- Settles O6: each operation reads the free byte once. -/
theorem absentAccumulatorReadsAsAFreeByte : Obligations.AbsentAccumulatorReadsAsAFreeByte := by
  intro s a b hr h
  simp only [exec, execCsumAcc, execCsumCompl, execCsumPair, execCsumMatch, whenReady_of_ready hr, State.accAdd,
    State.accRead_of_none h, State.accValue_of_none h]
  have hcompl : complByte (Config.freeByte s.freeCtr) = Config.freeByte s.freeCtr ^^^ 0xFF#8 := by
    rw [complByte, BitVec.not_def, BitVec.xor_comm]
    rfl
  exact ⟨by cases a <;> rfl, by rw [hcompl]; rfl, rfl, rfl⟩

/-! ### The enables and the handlers -/

/-- Settles O32: the two enables are written one after the other. -/
theorem criticalSectionSetsBothEnables : Obligations.CriticalSectionSetsBothEnables :=
  fun _ hr => ⟨whenReady_of_ready hr _, whenReady_of_ready hr _⟩

theorem serveTx_of_disabled {s : State} (hr : s.ready = true) (hen : s.irqTxEn = false) (body : State → Res) :
    serveTx s.txRow s body = .refused .handlerHeld := by
  simp [serveTx, whenReady_of_ready hr, whenSelected, hen]

theorem exec_rxDrain {s : State} (hr : s.ready = true) (hen : s.irqRxEn = true) :
    exec .rxDrain s = andThen (drainLoop s.chanRxbuf.length ((s.enterHandler .rxrdy).answer .none)) fun t =>
      if t.chanOvr then execRxOvrClear t else .next t := by
  simp [exec, execRxDrain, whenReady_of_ready hr, hen]

theorem exec_rxDrain_of_disabled {s : State} (hr : s.ready = true) (hen : s.irqRxEn = false) :
    exec .rxDrain s = .refused .handlerHeld := by
  simp [exec, execRxDrain, whenReady_of_ready hr, hen]

/-- Settles O33: both handlers test their enable after the row is selected. -/
theorem noHandlerRunsWhileDisabled : Obligations.NoHandlerRunsWhileDisabled := by
  refine fun s i hr => ⟨fun hen hd => ?_, exec_rxDrain_of_disabled hr⟩
  obtain ⟨body, hbody⟩ := exists_txRow_body s.txRow
  obtain rfl : txInstr s = i := Except.ok.inj hd
  rw [txInstr_eq_instr, hbody, serveTx_of_disabled hr hen]

theorem exec_rxOvrClear_of_overrun {s : State} (hr : s.ready = true) (hovr : s.chanOvr = true) :
    exec .rxOvrClear s = .next { s with chanOvr := false, trace := s.trace ++ [.ovrClear], result := .none } := by
  rw [exec_rxOvrClear hr, hovr]
  rfl

/-- RX.DRAIN with no byte waiting (R192). -/
theorem exec_rxDrain_of_empty {s : State} (hr : s.ready = true) (hen : s.irqRxEn = true) (hbuf : s.chanRxbuf = []) :
    exec .rxDrain s = .next
      (if s.chanOvr = true then
        { s with chanOvr := false, rxrdyPending := false, trace := s.trace ++ [.ovrClear], result := .none }
      else { s with rxrdyPending := false, result := .none }) := by
  have hready : ((s.enterHandler .rxrdy).answer .none).ready = true := hr
  have hlen : s.chanRxbuf.length = 0 := List.length_eq_zero_iff.2 hbuf
  rw [exec_rxDrain hr hen, hlen, drainLoop_zero, andThen_next]
  by_cases hovr : s.chanOvr = true
  · have hovr' : ((s.enterHandler .rxrdy).answer .none).chanOvr = true := hovr
    rw [if_pos hovr', if_pos hovr]
    exact exec_rxOvrClear_of_overrun hready hovr'
  · have hovr' : ¬ ((s.enterHandler .rxrdy).answer .none).chanOvr = true := hovr
    rw [if_neg hovr', if_neg hovr]
    rfl

/-- Settles O28. -/
theorem overrunClearTouchesOnlyTheFlag : Obligations.OverrunClearTouchesOnlyTheFlag :=
  fun _ hr => ⟨exec_rxOvrClear_of_overrun hr, exec_rxDrain_of_empty hr⟩

/-! ### The queues and the channel -/

section
variable {s : State} (hr : s.ready = true) (q : QName)
include hr

theorem exec_qRemhead :
    exec (.qRemhead q) s = .next ((s.removeHead q).answer (.handle (s.queue q).head?)) :=
  whenReady_of_ready hr _

theorem exec_qRemtail :
    exec (.qRemtail q) s = .next ((s.removeTail q).answer (.handle (s.queue q).getLast?)) :=
  whenReady_of_ready hr _

end

/-- A queue replaced by itself is the same state. -/
theorem State.setQueue_self (s : State) (q : QName) : s.setQueue q (s.queue q) = s := by
  cases q <;> rfl

theorem State.isEmptyAnswer_eq (s : State) (q : QName) : s.isEmptyAnswer q = .bit (decide (s.queue q = [])) := by
  simp [State.isEmptyAnswer]

/-- Settles O42: either end, an empty queue, and the three queries. -/
theorem queuePrimitivesTakeTheEndsAndAnswer : Obligations.QueuePrimitivesTakeTheEndsAndAnswer := by
  refine fun s hr => ⟨fun h l => ⟨fun hq => ?_, fun hq => ?_, fun hq => ?_, fun hq => ?_⟩, fun q =>
    ⟨fun hq => ⟨?_, ?_⟩, ?_, whenReady_of_ready hr _, whenReady_of_ready hr _⟩⟩
  · simp [exec_qRemhead hr, State.removeHead, State.queue, hq, State.setQueue, State.emit, State.answer]
  · simp [exec_qRemhead hr, State.removeHead, State.queue, hq, State.setQueue, State.emit, State.answer]
  · simp [exec_qRemtail hr, State.removeTail, State.queue, hq, State.setQueue, State.answer]
  · simp [exec_qRemtail hr, State.removeTail, State.queue, hq, State.setQueue, State.answer]
  · have hself : s.setQueue q [] = s := by rw [← hq, State.setQueue_self]
    rw [exec_qRemhead hr, State.removeHead, hq, List.tail_nil, hself]
    rfl
  · have hself : s.setQueue q [] = s := by rw [← hq, State.setQueue_self]
    rw [exec_qRemtail hr, State.removeTail, hq, List.dropLast_nil, hself]
    rfl
  · rw [← State.isEmptyAnswer_eq]
    exact whenReady_of_ready hr _

/-- Settles O43. -/
theorem channelPrimitivesDoTheirOneThing : Obligations.ChannelPrimitivesDoTheirOneThing := by
  refine fun s b hr => ⟨whenReady_of_ready hr _, ?_, fun l hl => ?_, fun hl => ?_, whenReady_of_ready hr _, fun on =>
    ⟨whenReady_of_ready hr _, whenReady_of_ready hr _⟩⟩
  · cases hl : s.chanRxbuf <;> simp [exec, execChAvail, whenReady_of_ready hr, hl, State.answer]
  · simp [exec, execChRead, whenReady_of_ready hr, hl, State.takeByte, State.emit, State.answer]
  · simp [exec, execChRead, whenReady_of_ready hr, hl]

/-- Settles O44. -/
theorem bytesArriveOrAreLost : Obligations.BytesArriveOrAreLost :=
  fun _ _ hr => ⟨whenReady_of_ready hr _, whenReady_of_ready hr _⟩

end Sys2Proof.Machine
end

section
/-! PROOFS. The packet store, the foreground and the remaining rows of the two machines (`20_memory.md` section 3,
`43_system.md` section 3, `41_transmit.md` section 3, `42_receive.md` section 3): what each answers, as equations, and the
statements about them. -/

namespace Sys2Proof.Machine

/-! ### Accesses that stop -/

section
variable {s : State} {o : Owner} {p : Handle}

theorem Memory.exists_lookup_of_owner {m : Memory} {p : Handle} (h : m.ownerOf p ≠ .store) :
    ∃ k, lookup p.id m = some k ∧ k.owner = m.ownerOf p := by
  unfold Memory.ownerOf at h ⊢
  cases hk : lookup p.id m with
  | none => simp [hk] at h
  | some k => exact ⟨k, rfl, rfl⟩

/-- A packet outside the store has a length. -/
theorem Memory.exists_lenOf_of_owner {m : Memory} {p : Handle} (h : m.ownerOf p ≠ .store) :
    ∃ n, m.lenOf p = some n := by
  obtain ⟨k, hk, -⟩ := Memory.exists_lookup_of_owner h
  exact ⟨k.len, by simp [Memory.lenOf, hk]⟩

theorem State.memRead_of_not_owner (h : s.packets.ownerOf p ≠ o) (i : Nat) :
    s.memRead o p i = .error .notOwner := by
  unfold Memory.ownerOf at h
  unfold State.memRead
  cases hk : lookup p.id s.packets with
  | none => rfl
  | some k => simp only [hk] at h; simp [h]

theorem State.memWrite_of_not_owner (h : s.packets.ownerOf p ≠ o) (i : Nat) (v : Byte) :
    s.memWrite o p i v = .fault .notOwner := by
  unfold Memory.ownerOf at h
  unfold State.memWrite
  cases hk : lookup p.id s.packets with
  | none => rfl
  | some k => simp only [hk] at h; simp [h]

variable {n i : Nat} (ho : s.packets.ownerOf p = o) (hn : s.packets.lenOf p = some n) (hi : n ≤ i)
include ho hn hi

theorem State.memRead_of_beyond : s.memRead o p i = .error .outOfRange := by
  unfold Memory.ownerOf at ho
  unfold Memory.lenOf at hn
  unfold State.memRead
  cases hk : lookup p.id s.packets with
  | none => simp [hk] at hn
  | some k =>
    simp only [hk, Option.some.injEq] at ho hn
    simp [ho, hn, hi]

theorem State.memWrite_of_beyond (v : Byte) : s.memWrite o p i v = .fault .outOfRange := by
  unfold Memory.ownerOf at ho
  unfold Memory.lenOf at hn
  unfold State.memWrite
  cases hk : lookup p.id s.packets with
  | none => simp [hk] at hn
  | some k =>
    simp only [hk, Option.some.injEq] at ho hn
    simp [ho, hn, hi]

end

/-! ### The foreground's own cells -/

section
variable {s : State} (hr : s.ready = true) (p : Handle) (i : Nat)
include hr

theorem perform_write (v : Byte) : perform (.write p i v) s = (s.answer .none).memWrite .fg p i v :=
  whenReady_of_ready hr _

theorem perform_read_of_ok {b : Byte} (h : s.memRead .fg p i = .ok b) :
    perform (.read p i) s = .next (s.answer (.byte b)) := by
  simp [perform, fgRead, whenReady_of_ready hr, h]

theorem perform_read_of_error {f : Fault} (h : s.memRead .fg p i = .error f) :
    perform (.read p i) s = .fault f := by
  simp [perform, fgRead, whenReady_of_ready hr, h]

end

/-- Settles O38: by the owner and the range; what is read back is the cell just written. -/
theorem foregroundAccessesItsOwnCellsOnly : Obligations.ForegroundAccessesItsOwnCellsOnly := by
  refine fun s p i n v hr => ⟨fun ho hn hi => ?_, fun ho hn hi => ⟨?_, ?_⟩, fun ho => ⟨?_, ?_⟩⟩
  · have hstore : s.packets.ownerOf p ≠ .store := by rw [ho]; decide
    have hwrite : (s.answer .none).memWrite .fg p i v =
        .next { s.answer .none with packets := s.packets.setCell p i v } :=
      State.memWrite_of_owner (s := s.answer .none) ho hn hi v
    refine ⟨_, (perform_write hr p i v).trans hwrite, rfl, Memory.cellWritten_setCell hstore i v, ?_⟩
    refine perform_read_of_ok (s := { s.answer .none with packets := s.packets.setCell p i v }) hr p i ?_
    rw [State.memRead_of_owner (o := .fg) (n := n) (by simpa using ho) (by simpa using hn) hi]
    simp [Memory.cell_setCell _ _ _ _ _ _ hstore]
  · exact (perform_write hr p i v).trans (State.memWrite_of_beyond (s := s.answer .none) ho hn hi v)
  · exact perform_read_of_error hr p i (State.memRead_of_beyond ho hn hi)
  · exact (perform_write hr p i v).trans (State.memWrite_of_not_owner (s := s.answer .none) ho i v)
  · exact perform_read_of_error hr p i (State.memRead_of_not_owner ho i)

/-! ### The packet store -/

/-- The counter of the free values after one answer: it advances where the listed answers are used up (log 5). -/
def State.freeCtrAfterAnswer (s : State) : Nat := s.freeCtr + if s.storeInput.isEmpty then 1 else 0

theorem State.spendAnswer_eq (s : State) :
    s.spendAnswer = { s with storeInput := s.storeInput.tail, freeCtr := s.freeCtrAfterAnswer } := by
  cases h : s.storeInput <;> simp [State.spendAnswer, State.freeCtrAfterAnswer, h]

/-- requestPacket with a packet answered, as an equation (R64). -/
theorem State.requestPacket_eq_of_some {s : State} {d : Nat} {p : Handle} (h : s.storeAnswer d = some p) (o : Owner) :
    s.requestPacket o d =
      { s with
        packets := s.packets.obtain p o (d + s.params.headerLength), trace := s.trace ++ [.storeReq d (some p)]
        storeInput := s.storeInput.tail, freeCtr := s.freeCtrAfterAnswer } := by
  simp only [State.requestPacket, h]
  rw [State.spendAnswer_eq]
  rfl

/-- requestPacket with FAIL answered, as an equation (R64). -/
theorem State.requestPacket_eq_of_none {s : State} {d : Nat} (h : s.storeAnswer d = none) (o : Owner) :
    s.requestPacket o d =
      { s with
        trace := s.trace ++ [.storeReq d none], storeInput := s.storeInput.tail
        freeCtr := s.freeCtrAfterAnswer } := by
  simp only [State.requestPacket, h]
  rw [State.spendAnswer_eq]
  rfl

/-- A fresh entry in the memory is what R64 says of the packets. -/
theorem Memory.leavesStore_obtain (m : Memory) (p : Handle) (o : Owner) (n : Nat) :
    LeavesStore m (m.obtain p o n) p o n :=
  ⟨m.ownerOf_obtain_self p o n, m.lenOf_obtain_self p o n, fun i => m.cell_obtain_self p o n i,
    fun _ hq => Memory.lookup_obtain_ne hq m o n⟩

theorem exec_storeRequest {s : State} (hr : s.ready = true) {c : Ctx} (hc : c ≠ .txi) (d : Nat) :
    exec (.storeRequest c d) s =
      .next ((s.requestPacket (ownerOfCtx c) d).answer (.handle (s.storeAnswer d))) := by
  simp [exec, execStoreRequest, whenReady_of_ready hr, hc]

/-- Settles O39: the caller is the owner of its context. -/
theorem requestPacketAnswersAFreshPacketOrFail : Obligations.RequestPacketAnswersAFreshPacketOrFail := by
  refine fun s d hr => ⟨fun c o p hc hp => ?_, fun c hc hnone => ?_, ?_⟩
  · obtain ⟨hctx, rfl⟩ : c ≠ .txi ∧ ownerOfCtx c = o := by
      rcases hc with ⟨rfl, rfl⟩ | ⟨rfl, rfl⟩ <;> exact ⟨by decide, rfl⟩
    rw [exec_storeRequest hr hctx, State.requestPacket_eq_of_some hp, hp]
    exact ⟨_, rfl, rfl, State.storeAnswer_owner hp, s.packets.leavesStore_obtain p _ _⟩
  · rw [exec_storeRequest hr hc, State.requestPacket_eq_of_none hnone, hnone]
    exact ⟨_, rfl, rfl⟩
  · simp [exec, execStoreRequest, whenReady_of_ready hr]

/-! ### The foreground -/

/-- A section runs its body with both enables 0 and leaves both 1 (R88). -/
theorem inSection_eq (s : State) (body : State → Res) :
    inSection s body = andThen (body { s with irqTxEn := false, irqRxEn := false, result := .none }) fun t =>
      .next { t with irqTxEn := true, irqRxEn := true } := rfl

section
variable {s : State} (hr : s.ready = true)
include hr

theorem exec_fgSend_of_room {p : Handle} (ho : s.packets.ownerOf p = .fg) (hroom : s.txq.length < s.txqCap) :
    exec (.fgSend p) s = .next
      { s with
        txq := s.txq ++ [p], irqTxEn := true, irqRxEn := true, packets := s.packets.setOwner p .txq
        trace := s.trace ++ [.qAdd .txq p true], result := .bit true } := by
  simp [exec, execFgSend, whenReady_of_ready hr, inSection_eq, ho, hroom, State.hasRoom, State.queue, State.queueCap,
    State.tryAddTail, State.setQueue, State.emit, State.transfer, State.answer]

theorem exec_fgSend_of_full {p : Handle} (ho : s.packets.ownerOf p = .fg) (hfull : s.txqCap ≤ s.txq.length) :
    exec (.fgSend p) s = .next
      { s with
        irqTxEn := true, irqRxEn := true, trace := s.trace ++ [.qAdd .txq p false], result := .bit false } := by
  simp [exec, execFgSend, whenReady_of_ready hr, inSection_eq, ho, Nat.not_lt.2 hfull, State.hasRoom, State.queue,
    State.queueCap, State.tryAddTail, State.emit, State.answer]

theorem exec_fgSend_of_not_owner {p : Handle} (ho : s.packets.ownerOf p ≠ .fg) :
    exec (.fgSend p) s = .fault .notOwner := by
  simp [exec, execFgSend, whenReady_of_ready hr, inSection_eq, ho]

theorem exec_fgRecv_of_nil (hq : s.rxq = []) :
    exec .fgRecv s = .next
      { s with
        irqTxEn := true, irqRxEn := true, trace := s.trace ++ [.qRem .rxq none], result := .handle none } := by
  simp [exec, execFgRecv, whenReady_of_ready hr, inSection_eq, hq, State.removeHead, State.queue, State.setQueue,
    State.emit, State.answer]

theorem exec_fgRecv_of_cons {p : Handle} {l : List Handle} (hq : s.rxq = p :: l) (ho : s.packets.ownerOf p = .rxq) :
    exec .fgRecv s = .next
      { s with
        rxq := l, irqTxEn := true, irqRxEn := true, packets := s.packets.setOwner p .fg
        trace := s.trace ++ [.qRem .rxq (some p)], result := .handle (some p) } := by
  simp [exec, execFgRecv, whenReady_of_ready hr, inSection_eq, hq, ho, State.removeHead, State.queue, State.setQueue,
    State.emit, State.transfer, State.answer]

theorem exec_fgQuery (q : QName) (f : QueryFn) :
    exec (.fgQuery q f) s = .next
      { s with
        irqTxEn := true, irqRxEn := true
        result :=
          (match f with
          | .isEmpty => .bit (decide (s.queue q = []))
          | .isFull => .bit (decide ((s.queue q).length = s.queueCap q))
          | .size => .nat (s.queue q).length) } := by
  have hbody (r : Result) : whenReady s (inSection s fun t => .next (t.answer r)) =
      .next { s with irqTxEn := true, irqRxEn := true, result := r } := by
    rw [whenReady_of_ready hr, inSection_eq, andThen_next, State.answer]
  cases f with
  | isEmpty => rw [← State.isEmptyAnswer_eq]; exact hbody (s.isEmptyAnswer q)
  | isFull => exact hbody (s.isFullAnswer q)
  | size => exact hbody (s.sizeAnswer q)

end

/-- Settles O34. -/
theorem sendQueuesOrDeclines : Obligations.SendQueuesOrDeclines := by
  refine fun s p hr => ⟨fun ho hroom => ?_, fun ho hfull => exec_fgSend_of_full hr ho hfull, fun ho =>
    exec_fgSend_of_not_owner hr ho⟩
  have hstore : s.packets.ownerOf p ≠ .store := by rw [ho]; decide
  exact ⟨_, exec_fgSend_of_room hr ho hroom, rfl, Memory.ownerPasses_setOwner hstore .txq⟩

/-- Settles O36. -/
theorem recvTakesTheOldestPacket : Obligations.RecvTakesTheOldestPacket := by
  refine fun s hr => ⟨exec_fgRecv_of_nil hr, fun p l hq ho => ?_⟩
  have hstore : s.packets.ownerOf p ≠ .store := by rw [ho]; decide
  exact ⟨_, exec_fgRecv_of_cons hr hq ho, rfl, Memory.ownerPasses_setOwner hstore .fg⟩

/-- Settles O37. -/
theorem queryAnswersAndChangesNothing : Obligations.QueryAnswersAndChangesNothing :=
  fun _ q f hr => exec_fgQuery hr q f

/-! ### FG.PROCESS -/

/-- FG.PROCESS in its section, before the enables are set again: the head of the outbound queue has left it. -/
def State.headTaken (s : State) (p : Handle) (l : List Handle) : State :=
  { s with irqTxEn := false, irqRxEn := false, result := .none, txq := l, trace := s.trace ++ [.qRem .txq (some p)] }

section
variable {s : State} (hr : s.ready = true)
include hr

theorem exec_fgProcess_of_nothing (h : s.txState ≠ .idle ∨ s.txq = []) :
    exec .fgProcess s = .next { s with irqTxEn := true, irqRxEn := true, result := .none } := by
  by_cases hidle : s.txState = .idle
  · have hq : s.txq = [] := h.resolve_left (not_not.2 hidle)
    simp [exec, execFgProcess, whenReady_of_ready hr, inSection_eq, hidle, hq]
  · simp [exec, execFgProcess, whenReady_of_ready hr, inSection_eq, hidle]

variable {p : Handle} {l : List Handle} {n : Nat} (hidle : s.txState = .idle) (hq : s.txq = p :: l)
include hidle hq

/-- With a head to submit, FG.PROCESS submits it. -/
theorem exec_fgProcess_of_cons :
    exec .fgProcess s = andThen
      (if (s.headTaken p l).submitRow (some p) = .accept then
        andThen (exec (.txSubmitAccept p) (s.headTaken p l)) fun v => .next (v.answer .none)
      else
        andThen (exec (.txSubmitReject (some p)) (s.headTaken p l)) fun v =>
        andThen (v.returnPacket .txq p) fun w => .next (w.answer .none))
      fun t => .next { t with irqTxEn := true, irqRxEn := true } := by
  simp [exec, execFgProcess, whenReady_of_ready hr, inSection_eq, hidle, hq, State.removeHead, State.queue,
    State.setQueue, State.emit, State.headTaken]

variable (hout : p ∉ l) (ho : s.packets.ownerOf p = .txq) (hn : s.packets.lenOf p = some n)
include hout ho hn

theorem exec_fgProcess_of_fits (hlt : n < s.params.maxFrameSize) (hnone : s.txPkt = none) :
    exec .fgProcess s = .next
      { s with
        txState := .sendingSize, txPkt := some p, txCsum := some (sizeByte n), txq := l
        irqTxEn := true, irqRxEn := true, packets := s.packets.setOwner p .tx
        trace := s.trace ++ [.qRem .txq (some p), .wireOut (sizeByte n)], result := .none } := by
  have hmay : MaySubmit (s.headTaken p l) p := .inr ⟨ho, hout⟩
  have hrow : (s.headTaken p l).submitRow (some p) = .accept :=
    (State.submitRow_some (s := s.headTaken p l) hidle hn).trans (if_neg (Nat.not_le.2 hlt))
  rw [exec_fgProcess_of_cons hr hidle hq, if_pos hrow,
    exec_txSubmitAccept (s := s.headTaken p l) hr hidle hmay hn hlt,
    State.startFrame_of_releaseHeld (State.releaseHeld_of_none (s := s.headTaken p l) hnone p) hmay.owner_ne.1]
  simp [State.headTaken, State.answer]

theorem exec_fgProcess_of_oversize (hlong : s.params.maxFrameSize ≤ n) :
    exec .fgProcess s = .next
      { s with
        txq := l, irqTxEn := true, irqRxEn := true, packets := s.packets.release p
        trace := s.trace ++ [.qRem .txq (some p), .outcome .submitOversize, .storeRet p], result := .none } := by
  have hmay : MaySubmit (s.headTaken p l) p := .inr ⟨ho, hout⟩
  have hrow : (s.headTaken p l).submitRow (some p) = .oversize :=
    (State.submitRow_some (s := s.headTaken p l) hidle hn).trans (if_pos hlong)
  rw [exec_fgProcess_of_cons hr hidle hq, hrow, if_neg (by decide),
    exec_txSubmitReject_of_oversize (s := s.headTaken p l) hr hrow ((State.maySubmit_iff _ p).2 hmay)]
  simp [State.headTaken, State.raise, State.emit, State.answer, State.returnPacket, ho]

end

/-- Settles O35: nothing to submit, a head that fits, a head too long. -/
theorem processSubmitsAtMostOnePacket : Obligations.ProcessSubmitsAtMostOnePacket := by
  refine fun s hr => ⟨exec_fgProcess_of_nothing hr, fun p l n hidle hq hout ho hn =>
    ⟨fun hlt hnone => ?_, fun hlong => ?_⟩⟩
  · have hstore : s.packets.ownerOf p ≠ .store := by rw [ho]; decide
    exact ⟨_, exec_fgProcess_of_fits hr hidle hq hout ho hn hlt hnone, rfl, Memory.ownerPasses_setOwner hstore .tx⟩
  · exact ⟨_, exec_fgProcess_of_oversize hr hidle hq hout ho hn hlong, rfl, s.packets.goesToStore_release p⟩

/-! ### TX.SUBMIT of a packet that may not be submitted, TX.ADV.IDLE and TX.ADV.TRAILER -/

theorem State.submitRow_of_selected {s : State} {p : Handle} (h : RowSelected s (.txSubmitAccept p)) :
    s.submitRow (some p) = .accept := by
  by_contra hne
  have hrej : submitInstr s (some p) = .txSubmitReject (some p) := submitInstr_of_ne_accept hne
  have hacc : submitInstr s (some p) = .txSubmitAccept p := Except.ok.inj (Laws.RoundTrip.txSubmitAccept p s h)
  cases hrej.symm.trans hacc

theorem State.maySubmit_of_not {s : State} {p : Handle} (h : ¬ MaySubmit s p) : s.maySubmit p = false :=
  Bool.eq_false_iff.2 fun hm => h ((s.maySubmit_iff p).1 hm)

/-- Settles O10: the owner is tested in either row, and the held packet is asked for by the defensive release. -/
theorem submitOfAnotherOwnersPacketStops : Obligations.SubmitOfAnotherOwnersPacketStops := by
  refine fun s p hr hidle => ⟨fun hmay hfits => ?_, fun hmay hlong => ?_, fun hmay hheld hfits => ?_⟩
  · have hrow : s.submitRow (some p) = .accept := State.submitRow_of_selected ⟨hidle, hfits⟩
    simp [exec, execTxSubmitAccept, whenReady_of_ready hr, whenSelected, hrow, State.maySubmit_of_not hmay]
  · obtain ⟨n, hn, hle⟩ := hlong
    have hrow : s.submitRow (some p) = .oversize := by rw [State.submitRow_some hidle hn, if_pos hle]
    simp [exec, execTxSubmitReject, whenReady_of_ready hr, hrow, State.maySubmit_of_not hmay]
  · obtain ⟨n, hn⟩ := Memory.exists_lenOf_of_owner hmay.owner_ne.1
    rw [exec_txSubmitAccept hr hidle hmay hn (hfits n hn)]
    simp [State.startFrame, State.releaseHeld, hheld]

theorem exec_txAdvIdle {s : State} (hr : s.ready = true) (hen : s.irqTxEn = true) (hst : s.txState = .idle) :
    exec .txAdvIdle s = .next { s with txrdyPending := false, result := .none } := by
  have hrow : s.txRow = .idle := by rw [State.txRow, hst]
  rw [exec, execTxAdvIdle, serveTx_of_selected hr hen hrow]
  rfl

/-- Settles O11. -/
theorem txReadyWhileIdleDoesNothing : Obligations.TxReadyWhileIdleDoesNothing :=
  fun _ hr hen hst => exec_txAdvIdle hr hen hst

/-- TX.ADV.TRAILER with the accumulator holding a byte (R158). -/
theorem exec_txAdvTrailer_of_some {s : State} {p : Handle} {c : Byte} (hr : s.ready = true) (hen : s.irqTxEn = true)
    (hst : s.txState = .sendingBody) (hend : TxAtLength s) (hp : s.txPkt = some p) (hc : s.txCsum = some c)
    (ho : s.packets.ownerOf p = .tx) :
    exec .txAdvTrailer s = .next
      { s with
        txState := .idle, txPkt := none, txOff := none, txCsum := none, txrdyPending := false
        packets := s.packets.release p, trace := s.trace ++ [.wireOut c, .storeRet p], result := .none } := by
  have hrow : s.txRow = .trailer := by simp [State.txRow, hst, (Laws.RoundTrip.txAtEnd_iff s).2 hend]
  have hp' : ((s.enterHandler .txrdy).answer .none).txPkt = some p := hp
  have hc' : ((s.enterHandler .txrdy).answer .none).acc .tx = some c := hc
  rw [exec, execTxAdvTrailer, serveTx_of_selected hr hen hrow]
  simp only [hp']
  rw [State.accRead_of_some _ .tx c hc', State.accValue_of_some _ .tx c hc',
    State.returnPacket_of_owner (by decide) (by exact ho)]
  simp [State.writeByte, State.emit, State.answer, State.enterHandler]

/-- Settles O14. -/
theorem txWritesTheTrailer : Obligations.TxWritesTheTrailer := by
  intro s p o c hr hen hst hp hoff hc ho hn
  exact ⟨_, exec_txAdvTrailer_of_some hr hen hst ⟨p, o, hp, hoff, hn⟩ hp hc ho, rfl, s.packets.goesToStore_release p⟩

/-! ### RX.AWAIT.VALID and RX.AWAIT.NOBUF -/

section
variable {s : State} {size b : Byte} (hr : s.ready = true) (hst : s.rxState = .awaitSizecheck)
  (hsize : s.rxSize = some size) (hc : s.rxCsum = some size) (hsum : size.toNat + b.toNat = 255)
  (hmin : 3 + s.params.headerLength ≤ size.toNat) (hmax : size.toNat < s.params.maxFrameSize)
include hsize hc hsum hmin hmax

theorem pairInBounds_of_sum : PairInBounds s b size :=
  ⟨hsize, by rw [s.accValue_of_some .rx size hc, xor_eq_ff_iff_sum, hsum], hmin, hmax⟩

include hr hst

/-- RX.AWAIT.VALID with the accumulator holding the candidate (R185). -/
theorem exec_rxAwaitValid_of_some {p : Handle}
    (hp : s.storeAnswer (size.toNat - s.params.headerLength - 3) = some p) :
    exec (.rxAwaitValid b) s = .next
      { s with
        rxState := .receivingBody, rxPkt := some p, rxOff := some 0, rxCsum := some 0xFF#8
        packets := s.packets.obtain p .rx (size.toNat - 3)
        trace := s.trace ++ [.storeReq (size.toNat - s.params.headerLength - 3) (some p)], result := .none
        storeInput := s.storeInput.tail, freeCtr := s.freeCtrAfterAnswer } := by
  have hsel : RowSelected s (.rxAwaitValid b) :=
    ⟨hst, size, pairInBounds_of_sum hsize hc hsum hmin hmax, fun h => Option.some_ne_none p (hp.symm.trans h)⟩
  have hff : accByte size b = 0xFF#8 := by
    rw [← accByte_complByte size]
    congr 1
    rw [← pairTest_iff_eq_complByte, pairTest_eq_decide_sum, decide_eq_true hsum]
  have hlen : size.toNat - s.params.headerLength - 3 + s.params.headerLength = size.toNat - 3 := by omega
  have hp' : (s.answer .none).storeAnswer ((s.answer .none).params.requestLength size) = some p := hp
  rw [exec, execRxAwaitValid, rxRowRun_of_selected .awaitValid hr hsel]
  simp only [State.answer_rxSize, hsize]
  rw [State.requestPacket_eq_of_some hp', State.accValue_of_some (s.answer .none) .rx size hc, hff, hp',
    State.accRead_of_some _ .rx size (by exact hc), ← hlen, ← hsize]
  rfl

/-- RX.AWAIT.NOBUF with the accumulator holding the candidate (R186). -/
theorem exec_rxAwaitNobuf_of_some (hnone : s.storeAnswer (size.toNat - s.params.headerLength - 3) = none) :
    exec (.rxAwaitNobuf b) s = .next
      { s.endReceive with
        trace := s.trace ++ [.storeReq (size.toNat - s.params.headerLength - 3) none, .outcome (.nobuf size)]
        result := .none, storeInput := s.storeInput.tail, freeCtr := s.freeCtrAfterAnswer } := by
  have hsel : RowSelected s (.rxAwaitNobuf b) :=
    ⟨hst, size, pairInBounds_of_sum hsize hc hsum hmin hmax, hnone⟩
  have hnone' : (s.answer .none).storeAnswer ((s.answer .none).params.requestLength size) = none := hnone
  rw [exec, execRxAwaitNobuf, rxRowRun_of_selected .awaitNobuf hr hsel]
  simp only [State.answer_rxSize, hsize]
  rw [State.requestPacket_eq_of_none hnone', State.accRead_of_some _ .rx size (by exact hc)]
  simp [State.endReceive, State.raise, State.emit, State.answer]
  exact ⟨rfl, rfl⟩

end

/-- Settles O18: the byte that completes the pair makes the accumulator 0xFF. -/
theorem rxValidPairObtainsAPacket : Obligations.RxValidPairObtainsAPacket := by
  intro s size b p hr hst hsize hc hsum hmin hmax hp
  exact ⟨_, exec_rxAwaitValid_of_some hr hst hsize hc hsum hmin hmax hp, rfl, State.storeAnswer_owner hp,
    s.packets.leavesStore_obtain p .rx _⟩

/-- Settles O19: RX holds no packet and no offset, so the end of the session clears only the other registers. -/
theorem rxValidPairWithoutAPacketIsDropped : Obligations.RxValidPairWithoutAPacketIsDropped := by
  intro s size b hr hst hpkt hoff hsize hc hsum hmin hmax hnone
  refine ⟨_, exec_rxAwaitNobuf_of_some hr hst hsize hc hsum hmin hmax hnone, ?_⟩
  rw [State.endReceive, ← hpkt, ← hoff]

end Sys2Proof.Machine
end

section
/-! PROOFS. The transitions of the two machines (`41_transmit.md` section 4, `42_receive.md` section 7): an operation whose
footprint does not reach a machine leaves its position alone, and each row of the machine makes a listed transition. -/

namespace Sys2Proof.Machine

/-! ### TX -/

/-- The transitions of R162. -/
def TxListed (s t : State) : Prop :=
  (s.txState = .idle → t.txState = .idle ∨ t.txState = .sendingSize) ∧
    (s.txState = .sendingSize → t.txState = .sendingSize ∨ (t.txState = .sendingBody ∧ t.txOff = some 0)) ∧
    (s.txState = .sendingBody →
      (t.txState = .sendingBody ∧ (t.txOff = s.txOff ∨ ∃ o, s.txOff = some o ∧ t.txOff = some (o + 1))) ∨
      (t.txState = .idle ∧ TxAtLength s ∧ t.txPkt = none))

section
variable {s t : State}

theorem txListed_of_kept (hst : t.txState = s.txState) (hoff : t.txOff = s.txOff) : TxListed s t := by
  refine ⟨fun h => .inl (hst.trans h), fun h => .inl (hst.trans h), fun h => .inl ⟨hst.trans h, .inl hoff⟩⟩

theorem txListed_of_touches {f : Footprint} (htx : f.tx = false) (hi : s.initialised = true) (h : Touches f s t) :
    TxListed s t := by
  obtain ⟨hst, -, hoff⟩ := h.txKept htx hi
  exact txListed_of_kept hst hoff

theorem txListed_of_start (hs : s.txState = .idle) (ht : t.txState = .sendingSize) : TxListed s t := by
  refine ⟨fun _ => .inr ht, fun h => ?_, fun h => ?_⟩ <;> cases hs.symm.trans h

theorem txListed_of_sizecheck (hs : s.txState = .sendingSize) (ht : t.txState = .sendingBody) (hoff : t.txOff = some 0) :
    TxListed s t := by
  refine ⟨fun h => ?_, fun _ => .inr ⟨ht, hoff⟩, fun h => ?_⟩ <;> cases hs.symm.trans h

theorem txListed_of_body (hs : s.txState = .sendingBody)
    (h : (t.txState = .sendingBody ∧ ∃ o, s.txOff = some o ∧ t.txOff = some (o + 1)) ∨
      (t.txState = .idle ∧ TxAtLength s ∧ t.txPkt = none)) : TxListed s t := by
  refine ⟨fun h => ?_, fun h => ?_, fun _ => h.imp (fun ⟨ht, hoff⟩ => ⟨ht, .inr hoff⟩) id⟩ <;> cases hs.symm.trans h

/-- Each row of TX.ADV makes a listed transition. -/
theorem txListed_advRow {row : TxRow} (h : exec row.instr s = .next t) : TxListed s t := by
  have hsel : ∀ {body}, serveTx row s body = .next t →
      RowSelected s row.instr ∧ body ((s.enterHandler .txrdy).answer .none) = .next t := by
    intro body hb
    obtain ⟨-, rfl, -, hb⟩ := serveTx_eq_next hb
    exact ⟨txInstr_selected s, hb⟩
  cases row with
  | idle =>
    obtain ⟨-, hb⟩ := hsel h
    cases hb
    exact txListed_of_kept rfl rfl
  | sizecheck =>
    rw [TxRow.instr, exec, execTxAdvSizecheck] at h
    obtain ⟨hst, hb⟩ := hsel h
    cases hb
    exact txListed_of_sizecheck hst rfl rfl
  | body =>
    rw [TxRow.instr, exec, execTxAdvBody] at h
    obtain ⟨⟨hst, -⟩, hb⟩ := hsel h
    split at hb
    · rename_i p o _ hoff
      split at hb
      · cases hb
        refine txListed_of_body hst (.inl ⟨?_, o, hoff, rfl⟩)
        simpa [State.writeByte, State.accAdd] using hst
      · cases hb
    · cases hb
  | trailer =>
    rw [TxRow.instr, exec, execTxAdvTrailer] at h
    obtain ⟨⟨hst, hend⟩, hb⟩ := hsel h
    split at hb
    · obtain ⟨u, -, hu⟩ := andThen_eq_next hb
      cases hu
      exact txListed_of_body hst (.inr ⟨rfl, hend, rfl⟩)
    · cases hb

/-- An accepted submission starts a frame of an idle TX. -/
theorem txState_of_submitAccept {p : Handle} (h : exec (.txSubmitAccept p) s = .next t) :
    s.txState = .idle ∧ t.txState = .sendingSize := by
  obtain ⟨-, h⟩ := whenReady_eq_next h
  obtain ⟨hrow, h⟩ := whenSelected_eq_next h
  obtain ⟨-, -, hidle, -⟩ := State.submitRow_eq_accept (eq_of_beq hrow)
  refine ⟨hidle, ?_⟩
  split at h
  · split at h
    · obtain ⟨u, -, h⟩ := andThen_eq_next h
      obtain ⟨v, -, h⟩ := andThen_eq_next h
      cases h
      rfl
    · cases h
  · cases h

/-- FG.PROCESS submits, or leaves TX where it is. -/
theorem txListed_fgProcess (hi : s.initialised = true) (h : exec .fgProcess s = .next t) : TxListed s t := by
  obtain ⟨hr, -⟩ := whenReady_eq_next h
  by_cases hidle : s.txState = .idle
  · cases hq : s.txq with
    | nil =>
      rw [exec_fgProcess_of_nothing hr (.inr hq)] at h
      cases h
      exact txListed_of_kept rfl rfl
    | cons p l =>
      rw [exec_fgProcess_of_cons hr hidle hq] at h
      obtain ⟨u, hu, h⟩ := andThen_eq_next h
      cases h
      split at hu
      · obtain ⟨v, hv, hu⟩ := andThen_eq_next hu
        cases hu
        exact txListed_of_start hidle (txState_of_submitAccept hv).2
      · let f : Footprint := ⟨false, false, false, fun _ => true⟩
        have hreach : Reaches f (s.headTaken p l) (andThen (exec (.txSubmitReject (some p)) (s.headTaken p l))
            fun v => andThen (v.returnPacket .txq p) fun w => .next (w.answer .none)) :=
          (reaches_submitReject _ _).andThen fun v hv =>
            (hv.returnPacket rfl p).andThen fun w hw => (hw.answer .none).next
        obtain ⟨hst, -, hoff⟩ := (hreach u hu).txKept rfl hi
        exact txListed_of_kept hst hoff
  · rw [exec_fgProcess_of_nothing hr (.inl hidle)] at h
    cases h
    exact txListed_of_kept rfl rfl

/-- ENV.TXRDY runs a row of TX.ADV, or leaves TX where it is. -/
theorem txListed_envTxrdy (h : exec .envTxrdy s = .next t) : TxListed s t := by
  obtain ⟨-, h⟩ := whenReady_eq_next h
  split at h
  · rw [txAdv_eq_exec, txInstr_eq_instr] at h
    exact txListed_advRow (s := s.raiseEvent .txrdy) h
  · cases h
    exact txListed_of_kept rfl rfl

end

/-- Settles O15: the operations whose footprint reaches TX are the rows of TX, FG.PROCESS and ENV.TXRDY. -/
theorem txTransitionsAreTheListedOnes : Obligations.TxTransitionsAreTheListedOnes := by
  intro i s t hi h
  cases i
  case txSubmitReject p =>
    exact txListed_of_touches (f := ⟨false, false, false, fun _ => true⟩) rfl hi (reaches_submitReject s p t h)
  case txSubmitAccept p =>
    obtain ⟨hs, ht⟩ := txState_of_submitAccept h
    exact txListed_of_start hs ht
  case txAdvIdle => exact txListed_advRow (row := .idle) h
  case txAdvSizecheck => exact txListed_advRow (row := .sizecheck) h
  case txAdvBody => exact txListed_advRow (row := .body) h
  case txAdvTrailer => exact txListed_advRow (row := .trailer) h
  case fgProcess => exact txListed_fgProcess hi h
  case envTxrdy => exact txListed_envTxrdy h
  all_goals exact txListed_of_touches rfl hi (exec_reaches _ s t h)

/-! ### RX -/

/-- The transitions of R197. -/
def RxListed (s t : State) : Prop :=
  (s.rxState = .idle → t.rxState = .idle ∨ t.rxState = .awaitSizecheck) ∧
    (s.rxState = .receivingBody →
      (t.rxState = .receivingBody ∧ ∃ o, s.rxOff = some o ∧ t.rxOff = some (o + 1)) ∨
      (t.rxState = .idle ∧ RxAtLength s ∧ t.rxPkt = none)) ∧
    (t.rxState = .receivingBody → s.rxState = .awaitSizecheck ∨ s.rxState = .receivingBody)

section
variable {s t : State}

theorem rxListed_of_idle (hs : s.rxState = .idle) (ht : t.rxState = .idle ∨ t.rxState = .awaitSizecheck) :
    RxListed s t := by
  refine ⟨fun _ => ht, fun h => ?_, fun h => ?_⟩
  · cases hs.symm.trans h
  · rcases ht with ht | ht <;> cases ht.symm.trans h

theorem rxListed_of_await (hs : s.rxState = .awaitSizecheck) : RxListed s t := by
  refine ⟨fun h => ?_, fun h => ?_, fun _ => .inl hs⟩ <;> cases hs.symm.trans h

theorem rxListed_of_body (hs : s.rxState = .receivingBody)
    (h : (t.rxState = .receivingBody ∧ ∃ o, s.rxOff = some o ∧ t.rxOff = some (o + 1)) ∨
      (t.rxState = .idle ∧ RxAtLength s ∧ t.rxPkt = none)) : RxListed s t := by
  refine ⟨fun h => ?_, fun _ => h, fun _ => .inr hs⟩
  cases hs.symm.trans h

/-- A row of RX.BYTE that answers a next state was selected, and is its body. -/
theorem selected_of_rxRowRun {row : RxRow} {b : Byte} {body : State → Res} (h : rxRowRun row b s body = .next t) :
    RowSelected s (row.instr b) ∧ body (s.answer .none) = .next t := by
  obtain ⟨-, rfl, hb⟩ := rxRowRun_eq_next h
  exact ⟨rxInstr_selected s b, hb⟩

/-- Each row of RX.BYTE makes a listed transition. -/
theorem rxListed_rxRow {row : RxRow} {b : Byte} (h : exec (row.instr b) s = .next t) : RxListed s t := by
  cases row with
  | idleAccept =>
    rw [RxRow.instr, exec, execRxIdleAccept] at h
    obtain ⟨⟨hst, -⟩, hb⟩ := selected_of_rxRowRun h
    cases hb
    exact rxListed_of_idle hst (.inr rfl)
  | idleDiscard =>
    rw [RxRow.instr, exec, execRxIdleDiscard] at h
    obtain ⟨⟨hst, -⟩, hb⟩ := selected_of_rxRowRun h
    cases hb
    exact rxListed_of_idle hst (.inl hst)
  | awaitValid =>
    rw [RxRow.instr, exec, execRxAwaitValid] at h
    exact rxListed_of_await (selected_of_rxRowRun h).1.1
  | awaitNobuf =>
    rw [RxRow.instr, exec, execRxAwaitNobuf] at h
    exact rxListed_of_await (selected_of_rxRowRun h).1.1
  | awaitResync =>
    rw [RxRow.instr, exec, execRxAwaitResync] at h
    exact rxListed_of_await (selected_of_rxRowRun h).1.1
  | bodyStore =>
    rw [RxRow.instr, exec, execRxBodyStore] at h
    obtain ⟨⟨hst, -⟩, hb⟩ := selected_of_rxRowRun h
    split at hb
    · rename_i p o _ hoff
      obtain ⟨u, hu, hb⟩ := andThen_eq_next hb
      obtain ⟨-, rfl⟩ := State.memWrite_eq_next hu
      cases hb
      refine rxListed_of_body hst (.inl ⟨?_, o, hoff, rfl⟩)
      simpa [State.accAdd] using hst
    · cases hb
  | bodyGood =>
    rw [RxRow.instr, exec, execRxBodyGood] at h
    obtain ⟨⟨hst, hend, -⟩, hb⟩ := selected_of_rxRowRun h
    split at hb
    · obtain ⟨u, -, hb⟩ := andThen_eq_next hb
      obtain ⟨v, -, hb⟩ := andThen_eq_next hb
      cases hb
      exact rxListed_of_body hst (.inr ⟨rfl, hend, rfl⟩)
    · cases hb
  | bodyGoodQfull =>
    rw [RxRow.instr, exec, execRxBodyGoodQfull] at h
    obtain ⟨⟨hst, hend, -⟩, hb⟩ := selected_of_rxRowRun h
    split at hb
    · obtain ⟨u, -, hb⟩ := andThen_eq_next hb
      obtain ⟨v, -, hb⟩ := andThen_eq_next hb
      cases hb
      exact rxListed_of_body hst (.inr ⟨rfl, hend, rfl⟩)
    · cases hb
  | bodyBad =>
    rw [RxRow.instr, exec, execRxBodyBad] at h
    obtain ⟨⟨hst, hend, -⟩, hb⟩ := selected_of_rxRowRun h
    split at hb
    · obtain ⟨u, -, hb⟩ := andThen_eq_next hb
      cases hb
      exact rxListed_of_body hst (.inr ⟨rfl, hend, rfl⟩)
    · cases hb

end

/-- Settles O25: a row makes a listed transition, and no other footprint reaches RX but those of RX.DRAIN and ENV.RXRDY. -/
theorem rxTransitionsAreTheListedOnes : Obligations.RxTransitionsAreTheListedOnes := by
  refine ⟨fun i s t hrow h => ?_, fun i s t hrow hdrain hready hi h => ?_⟩
  · obtain ⟨row, b, rfl⟩ := eq_instr_of_isRxByteRow hrow
    exact rxListed_rxRow h
  · have hrx : (footprint i).rx = false := by simp [footprint, hrow, hdrain, hready]
    exact (exec_reaches i s t h).rxKept hrx hi

end Sys2Proof.Machine
end

section
/-! PROOFS. The invariants of R48 taken apart: the registers of TX by the table of R25, the registers of RX by the table of
R31, who owns which packet, and the rest. Each part has one lemma for the states that agree with a state on what it reads. -/

namespace Sys2Proof.Machine

/-! ### The first cells of a packet -/

theorem cellsFrom_succ_last {cells : List Host.Cell} {i n : Nat} {bytes : List Byte} {b : Byte}
    (h : cellsFrom cells i n = some bytes) (hb : lookup (i + n) cells = some b) :
    cellsFrom cells i (n + 1) = some (bytes ++ [b]) := by
  induction n generalizing i bytes with
  | zero =>
    obtain rfl : [] = bytes := Option.some.inj h
    simp [cellsFrom, show lookup i cells = some b from hb]
  | succ n ih =>
    unfold cellsFrom at h
    split at h
    · rename_i c cs hc hcs
      obtain rfl : c :: cs = bytes := Option.some.inj h
      have hrest := ih hcs (by rwa [Nat.add_assoc, Nat.add_comm 1 n])
      rw [cellsFrom, hc, hrest]
      rfl
    · cases h

theorem cellsFrom_length {cells : List Host.Cell} {i n : Nat} {bytes : List Byte}
    (h : cellsFrom cells i n = some bytes) : bytes.length = n := by
  induction n generalizing i bytes with
  | zero =>
    obtain rfl : [] = bytes := Option.some.inj h
    rfl
  | succ n ih =>
    unfold cellsFrom at h
    split at h
    · rename_i c cs hc hcs
      obtain rfl : c :: cs = bytes := Option.some.inj h
      rw [List.length_cons, ih hcs]
    · cases h

/-- A cell beyond those read does not count. -/
theorem cellsFrom_update_of_le (cells : List Host.Cell) {i n j : Nat} (h : i + n ≤ j) (v : Byte) :
    cellsFrom (update j v cells) i n = cellsFrom cells i n := by
  induction n generalizing i with
  | zero => rfl
  | succ n ih =>
    have hne : i ≠ j := by omega
    rw [cellsFrom, cellsFrom, lookup_update_ne hne, ih (by omega)]

theorem firstCells_zero {m : Memory} {p : Handle} {n : Nat} (h : m.lenOf p = some n) :
    firstCells m p 0 = some [] := by
  unfold Memory.lenOf at h
  unfold firstCells
  cases hk : lookup p.id m with
  | none => simp [hk] at h
  | some k => rfl

theorem firstCells_succ {m : Memory} {p : Handle} {n : Nat} {bytes : List Byte} {b : Byte}
    (h : firstCells m p n = some bytes) (hb : m.cell p n = some b) :
    firstCells m p (n + 1) = some (bytes ++ [b]) := by
  unfold firstCells at h ⊢
  unfold Memory.cell at hb
  cases hk : lookup p.id m with
  | none => simp [hk] at h
  | some k =>
    simp only [hk] at h hb ⊢
    exact cellsFrom_succ_last h (by rwa [Nat.zero_add])

theorem firstCells_length {m : Memory} {p : Handle} {n : Nat} {bytes : List Byte}
    (h : firstCells m p n = some bytes) : bytes.length = n := by
  unfold firstCells at h
  split at h
  · exact cellsFrom_length h
  · cases h

/-- The cell at the offset joins the cells before it. -/
theorem firstCells_setCell_succ {m : Memory} {p : Handle} {n : Nat} {bytes : List Byte}
    (h : firstCells m p n = some bytes) (b : Byte) : firstCells (m.setCell p n b) p (n + 1) = some (bytes ++ [b]) := by
  unfold firstCells at h ⊢
  cases hk : lookup p.id m with
  | none => simp [hk] at h
  | some k =>
    simp only [hk] at h
    simp only [Memory.setCell, hk, lookup_update_self]
    refine cellsFrom_succ_last ?_ (by simp)
    rw [cellsFrom_update_of_le k.cells (by omega), h]

/-- A packet whose cells are all among the first ones is shown whole. -/
theorem payload_eq_firstCells {m : Memory} {p : Handle} {n : Nat} (h : m.lenOf p = some n) :
    m.payload p = firstCells m p n := by
  unfold Memory.lenOf at h
  unfold Memory.payload firstCells
  cases hk : lookup p.id m with
  | none => rfl
  | some k =>
    obtain rfl : k.len = n := by simpa [hk] using h
    rfl

/-! ### The parts of the invariants -/

/-- The registers of TX (R25, R48 (a) (e) (f)). -/
def TxInv (s : State) : Prop :=
  match s.txState with
  | .idle => s.txPkt = none ∧ s.txOff = none ∧ s.txCsum = none
  | .sendingSize =>
    ∃ p n, s.txPkt = some p ∧ s.txOff = none ∧ s.packets.lenOf p = some n ∧ n < s.params.maxFrameSize ∧
      s.txCsum = some (BitVec.ofNat 8 (n + 3))
  | .sendingBody =>
    ∃ p n o bytes, s.txPkt = some p ∧ s.txOff = some o ∧ s.packets.lenOf p = some n ∧ n < s.params.maxFrameSize ∧
      o ≤ n ∧ firstCells s.packets p o = some bytes ∧ s.txCsum = some (checksumOf bytes)

/-- The registers of RX (R31, R48 (b) (c) (d) (f)). -/
def RxInv (s : State) : Prop :=
  match s.rxState with
  | .idle => s.rxPkt = none ∧ s.rxOff = none ∧ s.rxSize = none ∧ s.rxCsum = none
  | .awaitSizecheck => s.rxPkt = none ∧ s.rxOff = none ∧ ∃ b, s.rxSize = some b ∧ s.rxCsum = some b
  | .receivingBody =>
    ∃ p size o bytes, s.rxPkt = some p ∧ s.rxOff = some o ∧ s.rxSize = some size ∧
      3 + s.params.headerLength ≤ size.toNat ∧ size.toNat < s.params.maxFrameSize ∧
      s.packets.lenOf p = some (size.toNat - 3) ∧ o ≤ size.toNat - 3 ∧ firstCells s.packets p o = some bytes ∧
      s.rxCsum = some (checksumOf bytes)

/-- Who owns which packet (R48 (h)). -/
structure OwnersInv (s : State) : Prop where
  tx : ∀ p, s.packets.ownerOf p = .tx ↔ s.txPkt = some p
  rx : ∀ p, s.packets.ownerOf p = .rx ↔ s.rxPkt = some p
  txq : ∀ p, s.packets.ownerOf p = .txq ↔ p ∈ s.txq
  rxq : ∀ p, s.packets.ownerOf p = .rxq ↔ p ∈ s.rxq
  once : s.txq.Nodup ∧ s.rxq.Nodup

/-- The parameters, the memory, the capacities, the enables and what is to come (R10, R47, R48 (g), R271, R233). -/
structure FrameInv (s : State) : Prop where
  ready : s.ready = true
  memory : s.packets.wf = true
  bounds : s.txq.length ≤ s.txqCap ∧ s.rxq.length ≤ s.rxqCap
  enables : s.irqTxEn = s.irqRxEn
  run : ∀ m ∈ s.program, isRunMove m = true

section
variable {s : State}

theorem Inv.txInv (h : Inv s) : TxInv s := by
  unfold TxInv
  cases hst : s.txState with
  | idle => exact ⟨h.txIdle.1 hst, h.txAbsent.2 (by rw [hst]; decide), h.txAbsent.1 hst⟩
  | sendingSize =>
    obtain ⟨p, n, hp, hn, hlt, hc⟩ := h.txSize hst
    exact ⟨p, n, hp, h.txAbsent.2 (by rw [hst]; decide), hn, hlt, hc⟩
  | sendingBody =>
    obtain ⟨p, n, o, bytes, hp, hn, hlt, ho, hle, hb, hc⟩ := h.txBody hst
    exact ⟨p, n, o, bytes, hp, ho, hn, hlt, hle, hb, hc⟩

theorem Inv.rxInv (h : Inv s) : RxInv s := by
  unfold RxInv
  have hpkt : s.rxState ≠ .receivingBody → s.rxPkt = none := fun hne =>
    not_not.1 fun hp => hne (h.rxBodyPkt.2 hp)
  cases hst : s.rxState with
  | idle =>
    obtain ⟨hsize, hoff, hc⟩ := h.rxIdle hst
    exact ⟨hpkt (by rw [hst]; decide), hoff, hsize, hc⟩
  | awaitSizecheck => exact ⟨hpkt (by rw [hst]; decide), h.rxAwait hst⟩
  | receivingBody =>
    obtain ⟨p, size, o, bytes, hp, hsize, hmin, hmax, hn, ho, hle, hb, hc⟩ := h.rxBody hst
    exact ⟨p, size, o, bytes, hp, ho, hsize, hmin, hmax, hn, hle, hb, hc⟩

theorem Inv.ownersInv (h : Inv s) : OwnersInv s := ⟨h.ownedTx, h.ownedRx, h.ownedTxq, h.ownedRxq, h.once⟩

variable (htx : TxInv s)
include htx

theorem TxInv.idle (h : s.txState = .idle) : s.txPkt = none ∧ s.txOff = none ∧ s.txCsum = none := by
  simpa only [TxInv, h] using htx

theorem TxInv.sendingSize (h : s.txState = .sendingSize) :
    ∃ p n, s.txPkt = some p ∧ s.txOff = none ∧ s.packets.lenOf p = some n ∧ n < s.params.maxFrameSize ∧
      s.txCsum = some (BitVec.ofNat 8 (n + 3)) := by
  simpa only [TxInv, h] using htx

theorem TxInv.sendingBody (h : s.txState = .sendingBody) :
    ∃ p n o bytes, s.txPkt = some p ∧ s.txOff = some o ∧ s.packets.lenOf p = some n ∧ n < s.params.maxFrameSize ∧
      o ≤ n ∧ firstCells s.packets p o = some bytes ∧ s.txCsum = some (checksumOf bytes) := by
  simpa only [TxInv, h] using htx

omit htx

variable (hrx : RxInv s)
include hrx

theorem RxInv.idle (h : s.rxState = .idle) :
    s.rxPkt = none ∧ s.rxOff = none ∧ s.rxSize = none ∧ s.rxCsum = none := by
  simpa only [RxInv, h] using hrx

theorem RxInv.await (h : s.rxState = .awaitSizecheck) :
    s.rxPkt = none ∧ s.rxOff = none ∧ ∃ b, s.rxSize = some b ∧ s.rxCsum = some b := by
  simpa only [RxInv, h] using hrx

theorem RxInv.body (h : s.rxState = .receivingBody) :
    ∃ p size o bytes, s.rxPkt = some p ∧ s.rxOff = some o ∧ s.rxSize = some size ∧
      3 + s.params.headerLength ≤ size.toNat ∧ size.toNat < s.params.maxFrameSize ∧
      s.packets.lenOf p = some (size.toNat - 3) ∧ o ≤ size.toNat - 3 ∧ firstCells s.packets p o = some bytes ∧
      s.rxCsum = some (checksumOf bytes) := by
  simpa only [RxInv, h] using hrx

include htx

/-- The four parts are the invariants of R48. -/
theorem inv_of_parts (hown : OwnersInv s) (hframe : FrameInv s) : Inv s where
  ready := hframe.ready
  memory := hframe.memory
  txIdle := by
    refine ⟨fun h => (htx.idle h).1, fun hnone => ?_⟩
    cases hst : s.txState with
    | idle => rfl
    | sendingSize =>
      obtain ⟨p, _, hp, -⟩ := htx.sendingSize hst
      cases hnone.symm.trans hp
    | sendingBody =>
      obtain ⟨p, _, _, _, hp, -⟩ := htx.sendingBody hst
      cases hnone.symm.trans hp
  txAbsent := by
    refine ⟨fun h => (htx.idle h).2.2, fun hne => ?_⟩
    cases hst : s.txState with
    | idle => exact (htx.idle hst).2.1
    | sendingSize =>
      obtain ⟨_, _, _, hoff, -⟩ := htx.sendingSize hst
      exact hoff
    | sendingBody => exact absurd hst hne
  txSize h := by
    obtain ⟨p, n, hp, -, hn, hlt, hc⟩ := htx.sendingSize h
    exact ⟨p, n, hp, hn, hlt, hc⟩
  txBody h := by
    obtain ⟨p, n, o, bytes, hp, ho, hn, hlt, hle, hb, hc⟩ := htx.sendingBody h
    exact ⟨p, n, o, bytes, hp, hn, hlt, ho, hle, hb, hc⟩
  rxBodyPkt := by
    refine ⟨fun h => ?_, fun hne => ?_⟩
    · obtain ⟨p, _, _, _, hp, -⟩ := hrx.body h
      rw [hp]
      exact Option.some_ne_none p
    · cases hst : s.rxState with
      | idle => exact absurd (hrx.idle hst).1 hne
      | awaitSizecheck => exact absurd (hrx.await hst).1 hne
      | receivingBody => rfl
  rxIdle h := by
    obtain ⟨-, hoff, hsize, hc⟩ := hrx.idle h
    exact ⟨hsize, hoff, hc⟩
  rxAwait h := (hrx.await h).2
  rxBody h := by
    obtain ⟨p, size, o, bytes, hp, ho, hsize, hmin, hmax, hn, hle, hb, hc⟩ := hrx.body h
    exact ⟨p, size, o, bytes, hp, hsize, hmin, hmax, hn, ho, hle, hb, hc⟩
  bounds := hframe.bounds
  ownedTx := hown.tx
  ownedRx := hown.rx
  ownedTxq := hown.txq
  ownedRxq := hown.rxq
  once := hown.once
  enables := hframe.enables
  run := hframe.run

end

/-! ### A part reads only its own registers and packets -/

theorem firstCells_congr {m m' : Memory} {p : Handle} (h : lookup p.id m' = lookup p.id m) (n : Nat) :
    firstCells m' p n = firstCells m p n := by
  simp only [firstCells, h]

theorem Memory.lenOf_congr {m m' : Memory} {p : Handle} (h : lookup p.id m' = lookup p.id m) :
    m'.lenOf p = m.lenOf p := by
  simp only [Memory.lenOf, h]

theorem Memory.ownerOf_congr {m m' : Memory} {p : Handle} (h : lookup p.id m' = lookup p.id m) :
    m'.ownerOf p = m.ownerOf p := by
  simp only [Memory.ownerOf, h]

/-- The registers of TX hold what they should as long as the packet TX holds is left alone. -/
theorem TxInv.with_packets {s : State} (h : TxInv s) {m : Memory}
    (hm : ∀ p, s.txPkt = some p → lookup p.id m = lookup p.id s.packets) : TxInv { s with packets := m } := by
  unfold TxInv
  cases hst : s.txState with
  | idle => exact h.idle hst
  | sendingSize =>
    obtain ⟨p, n, hp, hoff, hn, hlt, hc⟩ := h.sendingSize hst
    exact ⟨p, n, hp, hoff, (Memory.lenOf_congr (hm p hp)).trans hn, hlt, hc⟩
  | sendingBody =>
    obtain ⟨p, n, o, bytes, hp, ho, hn, hlt, hle, hb, hc⟩ := h.sendingBody hst
    exact ⟨p, n, o, bytes, hp, ho, (Memory.lenOf_congr (hm p hp)).trans hn, hlt, hle,
      (firstCells_congr (hm p hp) o).trans hb, hc⟩

/-- The registers of RX hold what they should as long as the packet RX holds is left alone. -/
theorem RxInv.with_packets {s : State} (h : RxInv s) {m : Memory}
    (hm : ∀ p, s.rxPkt = some p → lookup p.id m = lookup p.id s.packets) : RxInv { s with packets := m } := by
  unfold RxInv
  cases hst : s.rxState with
  | idle => exact h.idle hst
  | awaitSizecheck => exact h.await hst
  | receivingBody =>
    obtain ⟨p, size, o, bytes, hp, ho, hsize, hmin, hmax, hn, hle, hb, hc⟩ := h.body hst
    exact ⟨p, size, o, bytes, hp, ho, hsize, hmin, hmax, (Memory.lenOf_congr (hm p hp)).trans hn, hle,
      (firstCells_congr (hm p hp) o).trans hb, hc⟩

/-- What no invariant reads may change, and so may both enables together and the program. -/
theorem Inv.with_minor {s t : State} (h : Inv s)
    (ht : t = { s with
      chanOvr := t.chanOvr, chanRxbuf := t.chanRxbuf, txrdyPending := t.txrdyPending, rxrdyPending := t.rxrdyPending
      irqTxEn := t.irqTxEn, irqRxEn := t.irqRxEn, rxCallback := t.rxCallback, trace := t.trace, result := t.result
      storeInput := t.storeInput, freeCtr := t.freeCtr, program := t.program })
    (henables : t.irqTxEn = t.irqRxEn) (hrun : ∀ m ∈ t.program, isRunMove m = true) : Inv t := by
  rw [ht]
  exact inv_of_parts h.txInv h.rxInv ⟨h.ownedTx, h.ownedRx, h.ownedTxq, h.ownedRxq, h.once⟩
    ⟨h.ready, h.memory, h.bounds, henables, hrun⟩

end Sys2Proof.Machine
end

section
/-! PROOFS. The invariants are kept by what an operation of a run writes: one lemma for each way a packet passes from one
owner to another and each way a machine moves on. What no invariant reads is left to `Inv.with_minor`. -/

namespace Sys2Proof.Machine

/-! ### Owners after a memory operation -/

theorem Memory.ownerOf_release (m : Memory) (p q : Handle) :
    (m.release p).ownerOf q = if q = p then .store else m.ownerOf q := by
  by_cases hq : q = p
  · rw [hq, Memory.ownerOf_release_self, if_pos rfl]
  · rw [Memory.ownerOf_congr (Memory.lookup_release_ne hq m), if_neg hq]

theorem Memory.ownerOf_obtain (m : Memory) (p q : Handle) (o : Owner) (n : Nat) :
    (m.obtain p o n).ownerOf q = if q = p then o else m.ownerOf q := by
  by_cases hq : q = p
  · rw [hq, Memory.ownerOf_obtain_self, if_pos rfl]
  · rw [Memory.ownerOf_congr (Memory.lookup_obtain_ne hq m o n), if_neg hq]

/-! ### A packet passes to another owner -/

section
variable {own own' : Handle → Owner} {p : Handle} {o x : Owner}
  (hown : ∀ q, own' q = if q = p then o else own q) (hne : own p ≠ o)
include hown hne

/-- A register that holds the packets of one owner, when a packet passes to another owner. -/
theorem owner_iff_register_of_passes {reg reg' : Option Handle} (h : ∀ q, own q = x ↔ reg = some q)
    (hreg : reg' = if o = x then some p else if own p = x then none else reg) (hfree : o = x → reg = none) (q : Handle) :
    own' q = x ↔ reg' = some q := by
  rw [hown, hreg]
  have hq := h q
  have hp := h p
  by_cases hqp : q = p
  · subst hqp
    by_cases ho : o = x <;> grind
  · by_cases ho : o = x <;> grind

/-- A queue that holds the packets of one owner, when a packet passes to another owner. -/
theorem queue_passes {l l' : List Handle} (h : ∀ q, own q = x ↔ q ∈ l) (honce : l.Nodup)
    (hl : l' = if o = x then l ++ [p] else if own p = x then l.tail else l) (hhead : own p = x → l.head? = some p) :
    (∀ q, own' q = x ↔ q ∈ l') ∧ l'.Nodup := by
  by_cases ho : o = x
  · have hp : p ∉ l := fun hmem => hne (((h p).2 hmem).trans ho.symm)
    rw [if_pos ho] at hl
    subst hl
    refine ⟨fun q => ?_, by grind⟩
    have hq := h q
    grind
  · rw [if_neg ho] at hl
    by_cases hpx : own p = x
    · obtain ⟨l, rfl⟩ : ∃ l₀, l = p :: l₀ := ⟨l.tail, (List.cons_head?_tail (hhead hpx)).symm⟩
      rw [if_pos hpx] at hl
      subst hl
      refine ⟨fun q => ?_, honce.tail⟩
      have hq := h q
      grind
    · rw [if_neg hpx] at hl
      subst hl
      refine ⟨fun q => ?_, honce⟩
      have hq := h q
      grind
end

/-- A packet passes to another owner: it leaves the register or the head of the queue that held it, and joins the new
owner's. -/
structure Passes (s t : State) (p : Handle) (o : Owner) : Prop where
  owner : ∀ q, t.packets.ownerOf q = if q = p then o else s.packets.ownerOf q
  tx : t.txPkt = if o = .tx then some p else if s.packets.ownerOf p = .tx then none else s.txPkt
  rx : t.rxPkt = if o = .rx then some p else if s.packets.ownerOf p = .rx then none else s.rxPkt
  txq : t.txq = if o = .txq then s.txq ++ [p] else if s.packets.ownerOf p = .txq then s.txq.tail else s.txq
  rxq : t.rxq = if o = .rxq then s.rxq ++ [p] else if s.packets.ownerOf p = .rxq then s.rxq.tail else s.rxq
  free : (o = .tx → s.txPkt = none) ∧ (o = .rx → s.rxPkt = none)
  head : (s.packets.ownerOf p = .txq → s.txq.head? = some p) ∧ (s.packets.ownerOf p = .rxq → s.rxq.head? = some p)

/-- Every packet stays with whoever holds it (R48 (h)) when one passes to another owner. -/
theorem OwnersInv.pass {s t : State} {p : Handle} {o : Owner} (h : OwnersInv s) (hp : Passes s t p o)
    (hne : s.packets.ownerOf p ≠ o) : OwnersInv t where
  tx := owner_iff_register_of_passes hp.owner hne h.tx hp.tx hp.free.1
  rx := owner_iff_register_of_passes hp.owner hne h.rx hp.rx hp.free.2
  txq := (queue_passes hp.owner hne h.txq h.once.1 hp.txq hp.head.1).1
  rxq := (queue_passes hp.owner hne h.rxq h.once.2 hp.rxq hp.head.2).1
  once := ⟨(queue_passes hp.owner hne h.txq h.once.1 hp.txq hp.head.1).2,
   (queue_passes hp.owner hne h.rxq h.once.2 hp.rxq hp.head.2).2⟩

theorem OwnersInv.with_packets {s : State} (h : OwnersInv s) {m : Memory}
    (hm : ∀ q, m.ownerOf q = s.packets.ownerOf q) : OwnersInv { s with packets := m } where
  tx q := by rw [hm]; exact h.tx q
  rx q := by rw [hm]; exact h.rx q
  txq q := by rw [hm]; exact h.txq q
  rxq q := by rw [hm]; exact h.rxq q
  once := h.once

/-! ### The registers of a machine while another owner's packet changes -/

section
variable {s : State} (h : Inv s) {p : Handle}
include h

/-- A machine's packet is not one of another owner. -/
theorem Inv.txPkt_ne (ho : s.packets.ownerOf p ≠ .tx) {q : Handle} (hq : s.txPkt = some q) : q ≠ p := by
  rintro rfl
  exact ho ((h.ownedTx q).2 hq)

theorem Inv.rxPkt_ne (ho : s.packets.ownerOf p ≠ .rx) {q : Handle} (hq : s.rxPkt = some q) : q ≠ p := by
  rintro rfl
  exact ho ((h.ownedRx q).2 hq)

/-- The registers of TX while a packet of another owner changes. -/
theorem Inv.txInv_with_packets {m : Memory} (ho : s.packets.ownerOf p ≠ .tx)
    (hm : ∀ q, q ≠ p → lookup q.id m = lookup q.id s.packets) : TxInv { s with packets := m } :=
  h.txInv.with_packets fun q hq => hm q (h.txPkt_ne ho hq)

/-- The registers of RX while a packet of another owner changes. -/
theorem Inv.rxInv_with_packets {m : Memory} (ho : s.packets.ownerOf p ≠ .rx)
    (hm : ∀ q, q ≠ p → lookup q.id m = lookup q.id s.packets) : RxInv { s with packets := m } :=
  h.rxInv.with_packets fun q hq => hm q (h.rxPkt_ne ho hq)

/-! ### TX moves on -/

/-- A frame starts of a packet of the foreground, or of the head of the outbound queue, which leaves it (R152, R224). -/
theorem Inv.start {l : List Handle} {n : Nat} (hidle : s.txState = .idle)
    (hfrom : (s.packets.ownerOf p = .fg ∧ l = s.txq) ∨ (s.packets.ownerOf p = .txq ∧ s.txq = p :: l))
    (hn : s.packets.lenOf p = some n) (hlt : n < s.params.maxFrameSize) :
    Inv { s with
      txState := .sendingSize, txPkt := some p, txCsum := some (sizeByte n), txq := l
      packets := s.packets.setOwner p .tx } := by
  have hne : s.packets.ownerOf p ≠ .store ∧ s.packets.ownerOf p ≠ .rx ∧ s.packets.ownerOf p ≠ .tx := by
    rcases hfrom with ⟨ho, -⟩ | ⟨ho, -⟩ <;> rw [ho] <;> decide
  have hown := fun q => s.packets.ownerOf_setOwner p q .tx hne.1
  obtain ⟨hnone, hoff, -⟩ := h.txInv.idle hidle
  have hlen : l.length ≤ s.txq.length := by
    rcases hfrom with ⟨-, rfl⟩ | ⟨-, hq⟩
    · exact Nat.le_refl _
    · rw [hq]
      exact Nat.le_succ _
  refine inv_of_parts ⟨p, n, rfl, hoff, ?_, hlt, rfl⟩
    (h.rxInv_with_packets hne.2.1 fun q hq => Memory.lookup_setOwner_ne hq _ _)
    (h.ownersInv.pass (p := p) (o := .tx) ?_ hne.2.2)
    ⟨h.ready, Memory.wf_setOwner h.memory p (by decide), ⟨hlen.trans h.bounds.1, h.bounds.2⟩, h.enables, h.run⟩
  · rwa [Memory.lenOf_setOwner]
  · rcases hfrom with ⟨ho, rfl⟩ | ⟨ho, hq⟩
    · constructor <;> simp [hown, ho, hnone]
    · constructor <;> simp [hown, ho, hnone, hq]

/-- SizeCheck is sent (R156). -/
theorem Inv.sizecheck (hst : s.txState = .sendingSize) :
    Inv { s with txState := .sendingBody, txOff := some 0, txCsum := some 0xFF#8 } := by
  obtain ⟨q, n, hq, -, hn, hlt, -⟩ := h.txInv.sendingSize hst
  exact inv_of_parts ⟨q, n, 0, [], hq, rfl, hn, hlt, Nat.zero_le n, firstCells_zero hn, rfl⟩ h.rxInv
    ⟨h.ownedTx, h.ownedRx, h.ownedTxq, h.ownedRxq, h.once⟩ ⟨h.ready, h.memory, h.bounds, h.enables, h.run⟩

/-- A payload byte is sent (R157). -/
theorem Inv.sendByte {o n : Nat} {b c : Byte} (hst : s.txState = .sendingBody) (hp : s.txPkt = some p)
    (ho : s.txOff = some o) (hc : s.txCsum = some c) (hn : s.packets.lenOf p = some n) (hlt : o < n)
    (hb : s.packets.cell p o = some b) :
    Inv { s with txOff := some (o + 1), txCsum := some (accByte c b) } := by
  obtain ⟨p', n', o', bytes, hp', ho', hn', hmax, -, hbytes, hc'⟩ := h.txInv.sendingBody hst
  obtain rfl := Option.some.inj (hp.symm.trans hp')
  obtain rfl := Option.some.inj (ho.symm.trans ho')
  obtain rfl := Option.some.inj (hn.symm.trans hn')
  obtain rfl := Option.some.inj (hc.symm.trans hc')
  refine inv_of_parts ?_ h.rxInv ⟨h.ownedTx, h.ownedRx, h.ownedTxq, h.ownedRxq, h.once⟩
    ⟨h.ready, h.memory, h.bounds, h.enables, h.run⟩
  simp only [TxInv, hst, accByte_checksumOf]
  exact ⟨p, n, o + 1, bytes ++ [b], hp, rfl, hn, hmax, hlt, firstCells_succ hbytes hb, rfl⟩

/-- The Checksum is sent and the packet goes back to the store (R158). -/
theorem Inv.trailer (hp : s.txPkt = some p) :
    Inv { s with
      txState := .idle, txPkt := none, txOff := none, txCsum := none, packets := s.packets.release p } := by
  have ho : s.packets.ownerOf p = .tx := (h.ownedTx p).2 hp
  refine inv_of_parts ⟨rfl, rfl, rfl⟩
    (h.rxInv_with_packets (by rw [ho]; decide) fun q hq => Memory.lookup_release_ne hq _)
    (h.ownersInv.pass (p := p) (o := .store) ?_ (by rw [ho]; decide))
    ⟨h.ready, Memory.wf_release h.memory p, h.bounds, h.enables, h.run⟩
  constructor <;> simp [Memory.ownerOf_release, ho]

/-! ### RX moves on -/

/-- A byte becomes the candidate (R182, R187). -/
theorem Inv.candidate (hst : s.rxState ≠ .receivingBody) (b : Byte) :
    Inv { s with rxState := .awaitSizecheck, rxSize := some b, rxCsum := some b } := by
  have hnone : s.rxPkt = none ∧ s.rxOff = none := by
    cases hrx : s.rxState with
    | idle => exact ⟨(h.rxInv.idle hrx).1, (h.rxInv.idle hrx).2.1⟩
    | awaitSizecheck => exact ⟨(h.rxInv.await hrx).1, (h.rxInv.await hrx).2.1⟩
    | receivingBody => exact absurd hrx hst
  exact inv_of_parts h.txInv ⟨hnone.1, hnone.2, b, rfl, rfl⟩
    ⟨h.ownedTx, h.ownedRx, h.ownedTxq, h.ownedRxq, h.once⟩ ⟨h.ready, h.memory, h.bounds, h.enables, h.run⟩

/-- A packet of the store is RX's, and its body begins (R185). -/
theorem Inv.obtain {size : Byte} (hst : s.rxState = .awaitSizecheck) (hsize : s.rxSize = some size)
    (hmin : 3 + s.params.headerLength ≤ size.toNat) (hmax : size.toNat < s.params.maxFrameSize)
    (ho : s.packets.ownerOf p = .store) :
    Inv { s with
      rxState := .receivingBody, rxPkt := some p, rxOff := some 0, rxCsum := some 0xFF#8
      packets := s.packets.obtain p .rx (size.toNat - 3) } := by
  have hlen := s.packets.lenOf_obtain_self p .rx (size.toNat - 3)
  have hnone := (h.rxInv.await hst).1
  refine inv_of_parts (h.txInv_with_packets (by rw [ho]; decide) fun q hq => Memory.lookup_obtain_ne hq _ _ _)
    ⟨p, size, 0, [], rfl, rfl, hsize, hmin, hmax, hlen, Nat.zero_le _, firstCells_zero hlen, rfl⟩
    (h.ownersInv.pass (p := p) (o := .rx) ?_ (by rw [ho]; decide))
    ⟨h.ready, Memory.wf_obtain h.memory p (by decide) _, h.bounds, h.enables, h.run⟩
  constructor <;> simp [Memory.ownerOf_obtain, ho, hnone]

/-- The store has no packet for the pair (R186). -/
theorem Inv.endReceive_of_await (hst : s.rxState = .awaitSizecheck) : Inv s.endReceive := by
  have hnone := (h.rxInv.await hst).1
  exact inv_of_parts h.txInv ⟨rfl, rfl, rfl, rfl⟩
    ⟨h.ownedTx, fun q => (h.ownedRx q).trans (by rw [hnone]; rfl), h.ownedTxq, h.ownedRxq, h.once⟩
    ⟨h.ready, h.memory, h.bounds, h.enables, h.run⟩

/-- A payload byte is stored (R188). -/
theorem Inv.storeByte {o n : Nat} {c : Byte} (hst : s.rxState = .receivingBody) (hp : s.rxPkt = some p)
    (ho : s.rxOff = some o) (hc : s.rxCsum = some c) (hn : s.packets.lenOf p = some n) (hlt : o < n) (b : Byte) :
    Inv { s with
      rxOff := some (o + 1), rxCsum := some (accByte c b), packets := s.packets.setCell p o b } := by
  obtain ⟨p', size, o', bytes, hp', ho', hsize, hmin, hmax, hn', -, hbytes, hc'⟩ := h.rxInv.body hst
  obtain rfl := Option.some.inj (hp.symm.trans hp')
  obtain rfl := Option.some.inj (ho.symm.trans ho')
  obtain rfl := Option.some.inj (hn.symm.trans hn')
  obtain rfl := Option.some.inj (hc.symm.trans hc')
  have hrx : s.packets.ownerOf p = .rx := (h.ownedRx p).2 hp
  have hother := fun (q : Handle) (hq : q ≠ p) => Memory.lookup_setCell_ne hq s.packets o b
  have howners : OwnersInv { s with packets := s.packets.setCell p o b } :=
    h.ownersInv.with_packets fun q => s.packets.ownerOf_setCell p q o b
  have hwf : (s.packets.setCell p o b).wf = true :=
    Memory.wf_setCell h.memory p o b fun n' hn'' => by rwa [← Option.some.inj (hn.symm.trans hn'')]
  refine inv_of_parts (h.txInv_with_packets (by rw [hrx]; decide) hother) ?_
    ⟨howners.tx, howners.rx, howners.txq, howners.rxq, howners.once⟩ ⟨h.ready, hwf, h.bounds, h.enables, h.run⟩
  simp only [RxInv, hst, accByte_checksumOf]
  refine ⟨p, size, o + 1, bytes ++ [b], hp, rfl, hsize, hmin, hmax, ?_, hlt, firstCells_setCell_succ hbytes b, rfl⟩
  rwa [Memory.lenOf_setCell]

/-- A good frame's packet joins the inbound queue (R189). -/
theorem Inv.queueReceived (hp : s.rxPkt = some p) (hroom : s.rxq.length < s.rxqCap) :
    Inv { s.endReceive with rxq := s.rxq ++ [p], packets := s.packets.setOwner p .rxq } := by
  have ho : s.packets.ownerOf p = .rx := (h.ownedRx p).2 hp
  have hown := fun q => s.packets.ownerOf_setOwner p q .rxq (by rw [ho]; decide)
  refine inv_of_parts
    (h.txInv_with_packets (by rw [ho]; decide) fun q hq => Memory.lookup_setOwner_ne hq _ _)
    ⟨rfl, rfl, rfl, rfl⟩ (h.ownersInv.pass (p := p) (o := .rxq) ?_ (by rw [ho]; decide))
    ⟨h.ready, Memory.wf_setOwner h.memory p (by decide),
      ⟨h.bounds.1, by rw [List.length_append]; exact hroom⟩, h.enables, h.run⟩
  constructor <;> simp [hown, ho, State.endReceive]

/-- The packet of a frame that is not queued goes back to the store (R190, R191). -/
theorem Inv.returnReceived (hp : s.rxPkt = some p) : Inv { s.endReceive with packets := s.packets.release p } := by
  have ho : s.packets.ownerOf p = .rx := (h.ownedRx p).2 hp
  refine inv_of_parts
    (h.txInv_with_packets (by rw [ho]; decide) fun q hq => Memory.lookup_release_ne hq _) ⟨rfl, rfl, rfl, rfl⟩
    (h.ownersInv.pass (p := p) (o := .store) ?_ (by rw [ho]; decide))
    ⟨h.ready, Memory.wf_release h.memory p, h.bounds, h.enables, h.run⟩
  constructor <;> simp [Memory.ownerOf_release, ho, State.endReceive]

/-! ### The foreground -/

/-- A packet of the foreground joins the outbound queue (R223). -/
theorem Inv.send (ho : s.packets.ownerOf p = .fg) (hroom : s.txq.length < s.txqCap) :
    Inv { s with txq := s.txq ++ [p], packets := s.packets.setOwner p .txq } := by
  have hown := fun q => s.packets.ownerOf_setOwner p q .txq (by rw [ho]; decide)
  have hother := fun (q : Handle) (hq : q ≠ p) => Memory.lookup_setOwner_ne hq s.packets .txq
  refine inv_of_parts (h.txInv_with_packets (by rw [ho]; decide) hother)
    (h.rxInv_with_packets (by rw [ho]; decide) hother)
    (h.ownersInv.pass (p := p) (o := .txq) ?_ (by rw [ho]; decide))
    ⟨h.ready, Memory.wf_setOwner h.memory p (by decide),
      ⟨by rw [List.length_append]; exact hroom, h.bounds.2⟩, h.enables, h.run⟩
  constructor <;> simp [hown, ho]

/-- The head of the outbound queue goes back to the store (R224). -/
theorem Inv.discardHead {l : List Handle} (hq : s.txq = p :: l) :
    Inv { s with txq := l, packets := s.packets.release p } := by
  have ho : s.packets.ownerOf p = .txq := (h.ownedTxq p).2 (by rw [hq]; exact List.mem_cons_self)
  have hother := fun (q : Handle) (hq : q ≠ p) => Memory.lookup_release_ne hq s.packets
  have hlen : l.length ≤ s.txq.length := by rw [hq]; exact Nat.le_succ _
  refine inv_of_parts (h.txInv_with_packets (by rw [ho]; decide) hother)
    (h.rxInv_with_packets (by rw [ho]; decide) hother)
    (h.ownersInv.pass (p := p) (o := .store) ?_ (by rw [ho]; decide))
    ⟨h.ready, Memory.wf_release h.memory p, ⟨hlen.trans h.bounds.1, h.bounds.2⟩, h.enables, h.run⟩
  constructor <;> simp [Memory.ownerOf_release, ho, hq]

/-- The head of the inbound queue becomes the foreground's (R225). -/
theorem Inv.recv {l : List Handle} (hq : s.rxq = p :: l) :
    Inv { s with rxq := l, packets := s.packets.setOwner p .fg } := by
  have ho : s.packets.ownerOf p = .rxq := (h.ownedRxq p).2 (by rw [hq]; exact List.mem_cons_self)
  have hown := fun q => s.packets.ownerOf_setOwner p q .fg (by rw [ho]; decide)
  have hother := fun (q : Handle) (hq : q ≠ p) => Memory.lookup_setOwner_ne hq s.packets .fg
  have hlen : l.length ≤ s.rxq.length := by rw [hq]; exact Nat.le_succ _
  refine inv_of_parts (h.txInv_with_packets (by rw [ho]; decide) hother)
    (h.rxInv_with_packets (by rw [ho]; decide) hother)
    (h.ownersInv.pass (p := p) (o := .fg) ?_ (by rw [ho]; decide))
    ⟨h.ready, Memory.wf_setOwner h.memory p (by decide), ⟨h.bounds.1, hlen.trans h.bounds.2⟩, h.enables, h.run⟩
  constructor <;> simp [hown, ho, hq]

/-- The foreground is given a packet of the store (R64). -/
theorem Inv.request (ho : s.packets.ownerOf p = .store) (n : Nat) :
    Inv { s with packets := s.packets.obtain p .fg n } := by
  have hother := fun (q : Handle) (hq : q ≠ p) => Memory.lookup_obtain_ne hq s.packets .fg n
  refine inv_of_parts (h.txInv_with_packets (by rw [ho]; decide) hother)
    (h.rxInv_with_packets (by rw [ho]; decide) hother)
    (h.ownersInv.pass (p := p) (o := .fg) ?_ (by rw [ho]; decide))
    ⟨h.ready, Memory.wf_obtain h.memory p (by decide) n, h.bounds, h.enables, h.run⟩
  constructor <;> simp [Memory.ownerOf_obtain, ho]

/-- The foreground gives a packet back (R65). -/
theorem Inv.giveBack (ho : s.packets.ownerOf p = .fg) : Inv { s with packets := s.packets.release p } := by
  have hother := fun (q : Handle) (hq : q ≠ p) => Memory.lookup_release_ne hq s.packets
  refine inv_of_parts (h.txInv_with_packets (by rw [ho]; decide) hother)
    (h.rxInv_with_packets (by rw [ho]; decide) hother)
    (h.ownersInv.pass (p := p) (o := .store) ?_ (by rw [ho]; decide))
    ⟨h.ready, Memory.wf_release h.memory p, h.bounds, h.enables, h.run⟩
  constructor <;> simp [Memory.ownerOf_release, ho]

/-- The foreground writes a cell of its packet (R62). -/
theorem Inv.writeCell {i n : Nat} (ho : s.packets.ownerOf p = .fg) (hn : s.packets.lenOf p = some n) (hi : i < n)
    (v : Byte) : Inv { s with packets := s.packets.setCell p i v } := by
  have hother := fun (q : Handle) (hq : q ≠ p) => Memory.lookup_setCell_ne hq s.packets i v
  have hwf : (s.packets.setCell p i v).wf = true :=
    Memory.wf_setCell h.memory p i v fun n' hn' => by rwa [← Option.some.inj (hn.symm.trans hn')]
  exact inv_of_parts (h.txInv_with_packets (by rw [ho]; decide) hother)
    (h.rxInv_with_packets (by rw [ho]; decide) hother)
    (h.ownersInv.with_packets fun q => s.packets.ownerOf_setCell p q i v)
    ⟨h.ready, hwf, h.bounds, h.enables, h.run⟩

end

end Sys2Proof.Machine
end

section
/-! PROOFS. The invariants of R48 are established by SYS.INIT and kept by every step (`10_state.md` section 10): from a state
that meets them each operation of a run has its equation, and the state it answers is one of those of the previous part. -/

namespace Sys2Proof.Machine

/-! ### SYS.INIT -/

/-- Settles O57: no machine and no queue holds a packet, and none is owned by one. -/
theorem initEstablishesTheInvariants : Obligations.InitEstablishesTheInvariants := by
  intro s t n m cb hwf hfree hrun h
  have hp : s.params.ok = true := by
    cases hok : s.params.ok with
    | true => rfl
    | false => simp [exec, execSysInit, hok] at h
  have hi : s.initialised = false := by
    cases hinit : s.initialised with
    | true => simp [exec, execSysInit, hp, hinit] at h
    | false => rfl
  rw [exec_sysInit hp hi] at h
  cases h
  have hnot (p : Handle) {o : Owner} (hstore : o ≠ .store) (hfg : o ≠ .fg) : ¬ s.packets.ownerOf p = o := by
    rintro rfl
    exact (hfree p).elim hstore hfg
  refine inv_of_parts ⟨rfl, rfl, rfl⟩ ⟨rfl, rfl, rfl, rfl⟩ ?_
    ⟨by simp [State.ready, hp], hwf, ⟨Nat.zero_le _, Nat.zero_le _⟩, rfl, hrun⟩
  constructor <;> simp [hnot]

/-- Settles O56: the reset state is what SYS.INIT makes of the block before it. -/
theorem invariantsHoldAtReset : Obligations.InvariantsHoldAtReset :=
  initEstablishesTheInvariants State.powerOn State.reset 4 4 ⟨0⟩ rfl (fun _ => .inl rfl) (fun _ hm => nomatch hm) rfl

/-! ### The rows of RX.BYTE -/

/-- RX.BODY.STORE short of the end of the packet RX holds, with the accumulator holding a byte (R188). -/
theorem exec_rxBodyStore_of_some {s : State} {p : Handle} {o n : Nat} {c : Byte} (hr : s.ready = true)
    (hst : s.rxState = .receivingBody) (hp : s.rxPkt = some p) (hoff : s.rxOff = some o) (hc : s.rxCsum = some c)
    (ho : s.packets.ownerOf p = .rx) (hn : s.packets.lenOf p = some n) (hlt : o < n) (b : Byte) :
    exec (.rxBodyStore b) s = .next
      { s with
        rxOff := some (o + 1), rxCsum := some (accByte c b), packets := s.packets.setCell p o b, result := .none } := by
  have hwrite := State.memWrite_of_owner (s := s.answer .none) ho hn hlt b
  have hacc : State.acc { s.answer .none with packets := s.packets.setCell p o b } .rx = some c := hc
  rw [exec, execRxBodyStore, rxRowRun_of_selected .bodyStore hr ⟨hst, not_rxAtLength_of_lt hp hoff hn hlt⟩]
  simp only [State.answer_rxPkt, State.answer_rxOff, hp, hoff]
  rw [hwrite, andThen_next, State.answer_packets, State.accAdd_of_some hacc]
  simp [State.setAcc, State.answer, hp]

theorem rxByte_of_selected {s : State} (row : RxRow) {b : Byte} (h : RowSelected s (row.instr b)) :
    rxByte b s = exec (row.instr b) s := by
  rw [rxByte_eq_exec, rxInstr_eq_instr, State.rxRow_of_selected h]

/-- A row that completes is the one RX.BYTE selects. -/
theorem rxByte_of_next {s t : State} (row : RxRow) (b : Byte) (h : exec (row.instr b) s = .next t) :
    rxByte b s = .next t := by
  obtain ⟨body, hbody⟩ := exists_rxRow_body row b
  exact (rxByte_of_selected row (selected_of_rxRowRun ((hbody s).symm.trans h)).1).trans h

section
variable {s : State} (h : Inv s) (b : Byte)
include h

theorem rxByte_inv_of_idle (hst : s.rxState = .idle) : ∃ t, rxByte b s = .next t ∧ Inv t := by
  have hne : s.rxState ≠ .receivingBody := by rw [hst]; decide
  obtain ⟨haccept, hdiscard⟩ := rxIdleTakesACandidateOrDropsTheByte s b h.ready hst
  by_cases hb : b.toNat < s.params.maxFrameSize
  · exact ⟨_, (rxByte_of_selected .idleAccept ⟨hst, hb⟩).trans (haccept hb),
      (h.candidate hne b).with_minor rfl h.enables h.run⟩
  · have hb' : s.params.maxFrameSize ≤ b.toNat := Nat.not_lt.1 hb
    exact ⟨_, (rxByte_of_selected .idleDiscard ⟨hst, hb'⟩).trans (hdiscard hb'), h.with_minor rfl h.enables h.run⟩

theorem rxByte_inv_of_await (hst : s.rxState = .awaitSizecheck) : ∃ t, rxByte b s = .next t ∧ Inv t := by
  have hne : s.rxState ≠ .receivingBody := by rw [hst]; decide
  obtain ⟨-, -, size, hsize, hc⟩ := h.rxInv.await hst
  by_cases hpair : size.toNat + b.toNat = 255 ∧
      3 + s.params.headerLength ≤ size.toNat ∧ size.toNat < s.params.maxFrameSize
  · obtain ⟨hsum, hmin, hmax⟩ := hpair
    have hp := pairInBounds_of_sum hsize hc hsum hmin hmax
    cases ha : s.storeAnswer (size.toNat - s.params.headerLength - 3) with
    | some p =>
      have hsel : RowSelected s (.rxAwaitValid b) :=
        ⟨hst, size, hp, fun hnone => Option.some_ne_none p (ha.symm.trans hnone)⟩
      exact ⟨_, (rxByte_of_selected .awaitValid hsel).trans
        (exec_rxAwaitValid_of_some h.ready hst hsize hc hsum hmin hmax ha),
        (h.obtain hst hsize hmin hmax (State.storeAnswer_owner ha)).with_minor rfl h.enables h.run⟩
    | none =>
      exact ⟨_, (rxByte_of_selected .awaitNobuf ⟨hst, size, hp, ha⟩).trans
        (exec_rxAwaitNobuf_of_some h.ready hst hsize hc hsum hmin hmax ha),
        (h.endReceive_of_await hst).with_minor rfl h.enables h.run⟩
  · have hbad : size.toNat + b.toNat ≠ 255 ∨
        ¬ (3 + s.params.headerLength ≤ size.toNat ∧ size.toNat < s.params.maxFrameSize) := not_and_or.1 hpair
    exact ⟨_, (rxByte_of_selected .awaitResync ⟨hst, not_pairInBounds hsize hc hbad⟩).trans
      (rxResyncTakesTheByteAsCandidate s size size b h.ready hst hsize hc hbad),
      Inv.with_minor (h.candidate hne b) (by rw [← hst]) h.enables h.run⟩

theorem rxByte_inv_of_body (hst : s.rxState = .receivingBody) : ∃ t, rxByte b s = .next t ∧ Inv t := by
  obtain ⟨p, size, o, bytes, hp, ho, -, -, -, hn, hle, hbytes, hc⟩ := h.rxInv.body hst
  have hrx : s.packets.ownerOf p = .rx := (h.ownedRx p).2 hp
  by_cases hlt : o < size.toNat - 3
  · have hsel : RowSelected s (.rxBodyStore b) := ⟨hst, not_rxAtLength_of_lt hp ho hn hlt⟩
    exact ⟨_, (rxByte_of_selected .bodyStore hsel).trans (exec_rxBodyStore_of_some h.ready hst hp ho hc hrx hn hlt b),
      (h.storeByte hst hp ho hc hn hlt b).with_minor rfl h.enables h.run⟩
  · obtain rfl : o = size.toNat - 3 := by omega
    have hend : RxAtLength s := ⟨p, _, hp, ho, hn⟩
    have hP : s.packets.payload p = some bytes := (payload_eq_firstCells hn).trans hbytes
    have hacc : s.accValue .rx = checksumOf bytes := s.accValue_of_some .rx _ hc
    by_cases hb : b = checksumOf bytes
    · subst hb
      by_cases hroom : s.rxq.length < s.rxqCap
      · exact ⟨_, (rxByte_of_selected .bodyGood ⟨hst, hend, hacc.symm, hroom⟩).trans
          (exec_rxBodyGood_of_some h.ready hst hend hc hp hrx hP hroom),
          (h.queueReceived hp hroom).with_minor rfl h.enables h.run⟩
      · exact ⟨_, (rxByte_of_selected .bodyGoodQfull ⟨hst, hend, hacc.symm, hroom⟩).trans
          (exec_rxBodyGoodQfull_of_some h.ready hst hend hc hp hrx hP hroom),
          (h.returnReceived hp).with_minor rfl h.enables h.run⟩
    · exact ⟨_, (rxByte_of_selected .bodyBad ⟨hst, hend, by rwa [hacc]⟩).trans
        (exec_rxBodyBad_of_some h.ready hst hend hc hp hrx hb),
        (h.returnReceived hp).with_minor rfl h.enables h.run⟩

/-- From a state that meets the invariants RX.BYTE completes, in one that meets them. -/
theorem rxByte_inv : ∃ t, rxByte b s = .next t ∧ Inv t := by
  cases hst : s.rxState with
  | idle => exact rxByte_inv_of_idle h b hst
  | awaitSizecheck => exact rxByte_inv_of_await h b hst
  | receivingBody => exact rxByte_inv_of_body h b hst

end

/-- Settles O26: RX.BYTE runs the row it decodes to, within its frame. -/
theorem noByteStopsTheReceiver : Obligations.NoByteStopsTheReceiver := by
  intro s b h
  obtain ⟨t, ht, -⟩ := rxByte_inv h b
  have hframe := rxByte_frame ht
  refine ⟨rxInstr s b, t, rfl, ?_, by rwa [← rxByte_eq_exec], hframe.chanRxbuf, hframe.chanOvr⟩
  rw [rxInstr_eq_instr]
  cases s.rxRow b <;> rfl

/-! ### RX.DRAIN -/

/-- The drain loop completes and has read as many bytes as it was told to, or all that waited. -/
theorem drainLoop_inv (n : Nat) {s : State} (h : Inv s) :
    ∃ t, drainLoop n s = .next t ∧ Inv t ∧ t.chanRxbuf = s.chanRxbuf.drop n := by
  induction n generalizing s with
  | zero => exact ⟨s, rfl, h, rfl⟩
  | succ n ih =>
    cases hbuf : s.chanRxbuf with
    | nil =>
      refine ⟨s, ?_, h, hbuf⟩
      simp [drainLoop, hbuf]
    | cons b rest =>
      have htaken : Inv (s.takeByte b rest) := h.with_minor rfl h.enables h.run
      obtain ⟨u, hu, hinv⟩ := rxByte_inv htaken b
      obtain ⟨t, ht, hinv', hrest⟩ := ih hinv
      refine ⟨t, by rw [drainLoop_succ hbuf, hu, andThen_next, ht], hinv', ?_⟩
      rw [hrest, (rxByte_frame hu).chanRxbuf]
      rfl

/-- RX.DRAIN completes with nothing waiting and no overrun pending. -/
theorem rxDrain_inv {s : State} (h : Inv s) (hen : s.irqRxEn = true) :
    ∃ t, exec .rxDrain s = .next t ∧ Inv t ∧ t.chanRxbuf = [] ∧ t.chanOvr = false := by
  have hserved : Inv ((s.enterHandler .rxrdy).answer .none) := h.with_minor rfl h.enables h.run
  obtain ⟨t, ht, hinv, hrest⟩ := drainLoop_inv s.chanRxbuf.length hserved
  have hempty : t.chanRxbuf = [] := hrest.trans (List.drop_length)
  rw [exec_rxDrain h.ready hen, ht, andThen_next]
  cases hovr : t.chanOvr with
  | true =>
    exact ⟨_, exec_rxOvrClear_of_overrun hinv.ready hovr, hinv.with_minor rfl hinv.enables hinv.run, hempty, rfl⟩
  | false => exact ⟨t, rfl, hinv, hempty, hovr⟩

/-! ### The rows of TX -/

/-- TX.ADV.BODY with the cell written and the accumulator holding a byte (R157). -/
theorem exec_txAdvBody_of_some {s : State} {p : Handle} {o n : Nat} {b c : Byte} (hr : s.ready = true)
    (hen : s.irqTxEn = true) (hst : s.txState = .sendingBody) (hp : s.txPkt = some p) (hoff : s.txOff = some o)
    (ho : s.packets.ownerOf p = .tx) (hn : s.packets.lenOf p = some n) (hlt : o < n) (hc : s.txCsum = some c)
    (hb : s.packets.cell p o = some b) :
    exec .txAdvBody s = .next
      { s with
        txOff := some (o + 1), txCsum := some (accByte c b), txrdyPending := false
        trace := s.trace ++ [.wireOut b], result := .none } := by
  rw [accByte_eq_ofNat]
  exact (txWritesOnePayloadByte s p o n hr hen hst hp hoff ho hn hlt).1 b c hc hb

/-- A row of TX.ADV that completes is selected, on a ready block with the enable set. -/
theorem selected_of_advRow {s t : State} {row : TxRow} (h : exec row.instr s = .next t) :
    s.ready = true ∧ s.irqTxEn = true ∧ RowSelected s row.instr := by
  obtain ⟨body, hbody⟩ := exists_txRow_body row
  obtain ⟨hr, hrow, hen, -⟩ := serveTx_eq_next ((hbody s).symm.trans h)
  exact ⟨hr, hen, hrow ▸ txInstr_selected s⟩

section
variable {s t : State} (h : Inv s)
include h

theorem advRow_inv (row : TxRow) (ht : exec row.instr s = .next t) : Inv t := by
  obtain ⟨hr, hen, hsel⟩ := selected_of_advRow ht
  cases row with
  | idle =>
    rw [TxRow.instr, exec_txAdvIdle hr hen hsel] at ht
    cases ht
    exact h.with_minor rfl h.enables h.run
  | sizecheck =>
    obtain ⟨p, n, -, -, -, -, hc⟩ := h.txInv.sendingSize hsel
    rw [TxRow.instr, exec_txAdvSizecheck_of_some hr hen hsel hc, accByte_complByte] at ht
    cases ht
    exact (h.sizecheck hsel).with_minor rfl h.enables h.run
  | body =>
    obtain ⟨hst, hnot⟩ := hsel
    obtain ⟨p, n, o, bytes, hp, ho, hn, -, hle, -, hc⟩ := h.txInv.sendingBody hst
    have hlt : o < n := Nat.lt_of_le_of_ne hle fun heq => hnot ⟨p, o, hp, ho, by rw [heq]; exact hn⟩
    cases hb : s.packets.cell p o with
    | none =>
      rw [TxRow.instr, exec_txAdvBody hr hen hst hp ho ((h.ownedTx p).2 hp) hn hlt, hb] at ht
      cases ht
    | some b =>
      rw [TxRow.instr, exec_txAdvBody_of_some hr hen hst hp ho ((h.ownedTx p).2 hp) hn hlt hc hb] at ht
      cases ht
      exact (h.sendByte hst hp ho hc hn hlt hb).with_minor rfl h.enables h.run
  | trailer =>
    obtain ⟨hst, hend⟩ := hsel
    obtain ⟨p, n, o, bytes, hp, -, -, -, -, -, hc⟩ := h.txInv.sendingBody hst
    rw [TxRow.instr, exec_txAdvTrailer_of_some hr hen hst hend hp hc ((h.ownedTx p).2 hp)] at ht
    cases ht
    exact (h.trailer hp).with_minor rfl h.enables h.run

theorem submitReject_inv (p : Option Handle) (ht : exec (.txSubmitReject p) s = .next t) : Inv t := by
  obtain ⟨-, ht⟩ := whenReady_eq_next ht
  have hquiet (e : ErrorOutcome) : Inv ((s.raise e).answer (.bit false)) := h.with_minor rfl h.enables h.run
  split at ht
  · cases ht; exact hquiet _
  · cases ht; exact hquiet _
  · split at ht
    · cases ht; exact hquiet _
    · cases ht
  · cases ht

/-- A packet that may be submitted is the foreground's: those of the outbound queue are in the queue. -/
theorem Inv.owner_of_maySubmit {p : Handle} (hmay : MaySubmit s p) : s.packets.ownerOf p = .fg :=
  hmay.resolve_right fun hq => hq.2 ((h.ownedTxq p).1 hq.1)

theorem submitAccept_inv {p : Handle} (ht : exec (.txSubmitAccept p) s = .next t) : Inv t := by
  obtain ⟨-, hbody⟩ := whenReady_eq_next ht
  obtain ⟨hrow, hbody⟩ := whenSelected_eq_next hbody
  obtain ⟨q, hq, hidle, hfits⟩ := State.submitRow_eq_accept (eq_of_beq hrow)
  obtain rfl : p = q := Option.some.inj hq
  split at hbody
  · rename_i hmay
    have hmay' : MaySubmit s p := (s.maySubmit_iff p).1 hmay
    obtain ⟨n, hn⟩ := Memory.exists_lenOf_of_owner hmay'.owner_ne.1
    rw [exec_txSubmitAccept h.ready hidle hmay' hn (hfits n hn),
      State.startFrame_of_releaseHeld (State.releaseHeld_of_none (h.txIdle.1 hidle) p) hmay'.owner_ne.1] at ht
    cases ht
    exact (h.start hidle (.inl ⟨h.owner_of_maySubmit hmay', rfl⟩) hn (hfits n hn)).with_minor rfl h.enables h.run
  · cases hbody

/-! ### The foreground -/

theorem fgSend_inv {p : Handle} (ht : exec (.fgSend p) s = .next t) : Inv t := by
  by_cases ho : s.packets.ownerOf p = .fg
  · by_cases hroom : s.txq.length < s.txqCap
    · rw [exec_fgSend_of_room h.ready ho hroom] at ht
      cases ht
      exact (h.send ho hroom).with_minor rfl rfl h.run
    · rw [exec_fgSend_of_full h.ready ho (Nat.not_lt.1 hroom)] at ht
      cases ht
      exact h.with_minor rfl rfl h.run
  · rw [exec_fgSend_of_not_owner h.ready ho] at ht
    cases ht

theorem fgProcess_inv (ht : exec .fgProcess s = .next t) : Inv t := by
  by_cases hidle : s.txState = .idle
  · cases hq : s.txq with
    | nil =>
      rw [exec_fgProcess_of_nothing h.ready (.inr hq)] at ht
      cases ht
      exact h.with_minor rfl rfl h.run
    | cons p l =>
      have ho : s.packets.ownerOf p = .txq := (h.ownedTxq p).2 (by rw [hq]; exact List.mem_cons_self)
      have hout : p ∉ l := (List.nodup_cons.1 (hq ▸ h.once.1)).1
      obtain ⟨n, hn⟩ := Memory.exists_lenOf_of_owner (m := s.packets) (p := p) (by rw [ho]; decide)
      by_cases hlt : n < s.params.maxFrameSize
      · rw [exec_fgProcess_of_fits h.ready hidle hq hout ho hn hlt (h.txIdle.1 hidle)] at ht
        cases ht
        exact (h.start hidle (.inr ⟨ho, hq⟩) hn hlt).with_minor rfl rfl h.run
      · rw [exec_fgProcess_of_oversize h.ready hidle hq hout ho hn (Nat.not_lt.1 hlt)] at ht
        cases ht
        exact (h.discardHead hq).with_minor rfl rfl h.run
  · rw [exec_fgProcess_of_nothing h.ready (.inl hidle)] at ht
    cases ht
    exact h.with_minor rfl rfl h.run

theorem fgRecv_inv (ht : exec .fgRecv s = .next t) : Inv t := by
  cases hq : s.rxq with
  | nil =>
    rw [exec_fgRecv_of_nil h.ready hq] at ht
    cases ht
    exact h.with_minor rfl rfl h.run
  | cons p l =>
    rw [exec_fgRecv_of_cons h.ready hq ((h.ownedRxq p).2 (by rw [hq]; exact List.mem_cons_self))] at ht
    cases ht
    exact (h.recv hq).with_minor rfl rfl h.run

theorem storeRequest_inv {d : Nat} (ht : exec (.storeRequest .fg d) s = .next t) : Inv t := by
  rw [exec_storeRequest h.ready (by decide)] at ht
  cases ht
  cases ha : s.storeAnswer d with
  | some p =>
    rw [State.requestPacket_eq_of_some ha]
    exact (h.request (State.storeAnswer_owner ha) _).with_minor rfl h.enables h.run
  | none =>
    rw [State.requestPacket_eq_of_none ha]
    exact h.with_minor rfl h.enables h.run

theorem storeReturn_inv {p : Handle} (ht : exec (.storeReturn .fg p) s = .next t) : Inv t := by
  rw [exec_storeReturn h.ready] at ht
  obtain ⟨⟨-, ho⟩, rfl⟩ := State.returnPacket_eq_next ht
  exact (h.giveBack ho).with_minor rfl h.enables h.run

theorem fgWrite_inv {p : Handle} {off : Nat} {v : Byte} (ht : fgWrite p off v s = .next t) : Inv t := by
  obtain ⟨-, ht⟩ := whenReady_eq_next ht
  obtain ⟨⟨k, hk, ho, hlt⟩, rfl⟩ := State.memWrite_eq_next ht
  have hk' : lookup p.id s.packets = some k := hk
  have hown : s.packets.ownerOf p = .fg := by simp [Memory.ownerOf, hk', ho]
  have hn : s.packets.lenOf p = some k.len := by simp [Memory.lenOf, hk']
  exact (h.writeCell hown hn hlt v).with_minor rfl h.enables h.run

theorem fgRead_inv {p : Handle} {off : Nat} (ht : fgRead p off s = .next t) : Inv t := by
  obtain ⟨-, ht⟩ := whenReady_eq_next ht
  split at ht
  · cases ht
    exact h.with_minor rfl h.enables h.run
  · cases ht

/-! ### Every operation of a run, and every step -/

omit h in
/-- An operation whose rest of the step answers one state answers that state. -/
theorem eq_of_exists_next {r : Res} {P : State → Prop} (hr : ∃ u, r = .next u ∧ P u) (ht : r = .next t) : P t := by
  obtain ⟨u, hu, hP⟩ := hr
  cases hu.symm.trans ht
  exact hP

theorem rxRow_inv (row : RxRow) (b : Byte) (ht : exec (row.instr b) s = .next t) : Inv t :=
  eq_of_exists_next (rxByte_inv h b) (rxByte_of_next row b ht)

theorem rxDrain_inv_of_next (ht : exec .rxDrain s = .next t) : Inv t := by
  cases hen : s.irqRxEn with
  | true =>
    obtain ⟨u, hu, hinv, -⟩ := rxDrain_inv h hen
    exact eq_of_exists_next ⟨u, hu, hinv⟩ ht
  | false =>
    rw [exec_rxDrain_of_disabled h.ready hen] at ht
    cases ht

theorem exec_inv {i : Instr} (hrun : isRunCall (encode i) = true) (ht : exec i s = .next t) : Inv t := by
  cases i
  case txSubmitReject p => exact submitReject_inv h p ht
  case txSubmitAccept p => exact submitAccept_inv h ht
  case txAdvIdle => exact advRow_inv h .idle ht
  case txAdvSizecheck => exact advRow_inv h .sizecheck ht
  case txAdvBody => exact advRow_inv h .body ht
  case txAdvTrailer => exact advRow_inv h .trailer ht
  case rxIdleAccept b => exact rxRow_inv h .idleAccept b ht
  case rxIdleDiscard b => exact rxRow_inv h .idleDiscard b ht
  case rxAwaitValid b => exact rxRow_inv h .awaitValid b ht
  case rxAwaitNobuf b => exact rxRow_inv h .awaitNobuf b ht
  case rxAwaitResync b => exact rxRow_inv h .awaitResync b ht
  case rxBodyStore b => exact rxRow_inv h .bodyStore b ht
  case rxBodyGood b => exact rxRow_inv h .bodyGood b ht
  case rxBodyGoodQfull b => exact rxRow_inv h .bodyGoodQfull b ht
  case rxBodyBad b => exact rxRow_inv h .bodyBad b ht
  case rxDrain => exact rxDrain_inv_of_next h ht
  case rxOvrClear =>
    obtain ⟨-, ht⟩ := whenReady_eq_next ht
    obtain ⟨-, ht⟩ := whenSelected_eq_next ht
    cases ht
    exact h.with_minor rfl h.enables h.run
  case sysInit n m cb =>
    rw [(onlyInitRunsBeforeInitAndOnlyOnce.2 s n m cb (ready_params h.ready) (ready_initialised h.ready))] at ht
    cases ht
  case sysCritEnter =>
    rw [(criticalSectionSetsBothEnables s h.ready).1] at ht
    cases ht
    exact h.with_minor rfl rfl h.run
  case sysCritLeave =>
    rw [(criticalSectionSetsBothEnables s h.ready).2] at ht
    cases ht
    exact h.with_minor rfl rfl h.run
  case fgSend p => exact fgSend_inv h ht
  case fgProcess => exact fgProcess_inv h ht
  case fgRecv => exact fgRecv_inv h ht
  case fgQuery q f =>
    rw [exec_fgQuery h.ready] at ht
    cases ht
    exact h.with_minor rfl rfl h.run
  case storeRequest c d =>
    obtain rfl : c = .fg := by simpa [isRunCall, encode] using hrun
    exact storeRequest_inv h ht
  case storeReturn c p =>
    obtain rfl : c = .fg := by simpa [isRunCall, encode] using hrun
    exact storeReturn_inv h ht
  case envRxbyte b =>
    rw [(bytesArriveOrAreLost s b h.ready).1] at ht
    cases ht
    exact h.with_minor rfl h.enables h.run
  case envRxlose =>
    rw [(bytesArriveOrAreLost s 0 h.ready).2] at ht
    cases ht
    exact h.with_minor rfl h.enables h.run
  case envTxrdy =>
    have hraised : Inv (s.raiseEvent .txrdy) := h.with_minor rfl h.enables h.run
    obtain ⟨-, ht⟩ := whenReady_eq_next ht
    split at ht
    · rw [txAdv_eq_exec, txInstr_eq_instr] at ht
      exact advRow_inv hraised _ ht
    · cases ht
      exact hraised.with_minor rfl h.enables h.run
  case envRxrdy =>
    have hraised : Inv (s.raiseEvent .rxrdy) := h.with_minor rfl h.enables h.run
    obtain ⟨-, ht⟩ := whenReady_eq_next ht
    split at ht
    · exact rxDrain_inv_of_next hraised ht
    · cases ht
      exact hraised.with_minor rfl h.enables h.run
  all_goals cases hrun

end

/-- The row TX.ADV selects and RX.DRAIN are operations of a run, and so is what a call of the program decodes to. -/
theorem isRunCall_of_step {s : State} (h : Inv s) {i : Instr}
    (hi : i = txInstr s ∨ i = .rxDrain ∨ ∃ c, Move.call c ∈ s.program ∧ decode s c = .ok i) :
    isRunCall (encode i) = true := by
  rcases hi with rfl | rfl | ⟨c, hc, hd⟩
  · rw [txInstr_eq_instr, TxRow.encode_instr]
    rfl
  · rfl
  · rw [(decode_eq_ok hd).1]
    exact h.run _ hc

/-- Settles O58: by what a step makes, each in a state that meets the invariants as the one it starts in does. -/
theorem everyStepKeepsTheInvariants : Obligations.EveryStepKeepsTheInvariants := by
  intro s t h ht
  obtain ⟨l, k, hl, hstep⟩ := step_eq_next ht
  have hrun : ∀ m ∈ l, isRunMove m = true := fun m hm => h.run m (hl m hm)
  rcases hstep with ⟨i, hexec, hi⟩ | ⟨p, off, v, hw⟩ | ⟨p, off, hr⟩ | rfl
  · have hstart : Inv { s with program := l, freeCtr := k } := h.with_minor rfl h.enables hrun
    exact exec_inv hstart (isRunCall_of_step h hi) hexec
  · have hstart : Inv { s with program := l } := h.with_minor rfl h.enables hrun
    exact fgWrite_inv hstart hw
  · have hstart : Inv { s with program := l } := h.with_minor rfl h.enables hrun
    exact fgRead_inv hstart hr
  · exact h

end Sys2Proof.Machine
end

section
/-! PROOFS. The two interrupt handlers (`42_receive.md` section 5, `43_system.md` section 4): RX.DRAIN byte by byte, what
it leaves unchanged, and the events served or held. -/

namespace Sys2Proof.Machine

/-! ### RX.DRAIN byte by byte -/

theorem andThen_assoc (r : Res) (k l : State → Res) :
    andThen (andThen r k) l = andThen r fun t => andThen (k t) l := by
  cases r <;> rfl

/-- What follows an operation matters only at the states the operation answers. -/
theorem andThen_congr {r : Res} {k l : State → Res} (h : ∀ t, r = .next t → k t = l t) : andThen r k = andThen r l := by
  cases r with
  | next t => exact h t rfl
  | fault _ => rfl
  | refused _ => rfl

/-- With the event served and no result left from before, entering the handler changes nothing. -/
theorem State.enterHandler_rxrdy_of_served {s : State} (hpend : s.rxrdyPending = false) (hres : s.result = .none) :
    (s.enterHandler .rxrdy).answer .none = s := by
  obtain ⟨⟩ := s
  cases hpend
  cases hres
  rfl

theorem RxByteFrame.ready {s t : State} (h : RxByteFrame s t) : t.ready = s.ready := by
  rw [State.ready, State.ready, h.params, h.initialised]

/-- RX.DRAIN with a byte waiting is RX.BYTE of it, then RX.DRAIN (R192). -/
theorem exec_rxDrain_cons {s : State} {b : Byte} {rest : List Byte} (hr : s.ready = true) (hen : s.irqRxEn = true)
    (hbuf : s.chanRxbuf = b :: rest) :
    exec .rxDrain s =
      andThen (rxByte b { s.takeByte b rest with rxrdyPending := false, result := .none }) fun t => exec .rxDrain t := by
  have hbuf' : ((s.enterHandler .rxrdy).answer .none).chanRxbuf = b :: rest := hbuf
  rw [exec_rxDrain hr hen, hbuf, List.length_cons, drainLoop_succ hbuf', andThen_assoc]
  refine andThen_congr fun t ht => ?_
  have hframe := rxByte_frame ht
  have hready : t.ready = true := hframe.ready.trans hr
  have hlen : rest.length = t.chanRxbuf.length := congrArg List.length hframe.chanRxbuf.symm
  rw [exec_rxDrain hready (hframe.irqRxEn.trans hen), State.enterHandler_rxrdy_of_served hframe.rxrdyPending hframe.result,
    hlen]

/-! ### What RX.DRAIN leaves unchanged -/

/-- RX.BYTE puts nothing on either byte stream. -/
theorem rxByte_wire {b : Byte} {s t : State} (hi : s.initialised = true) (h : rxByte b s = .next t) :
    t.wireOut = s.wireOut ∧ t.wireIn = s.wireIn :=
  (reaches_rxByte (f := footprint (.rxIdleDiscard b)) s rfl rfl rfl b t h).wire_eq rfl hi

/-- What a run of the handler that reads `bytes` leaves unchanged, and the wire-in stream it leaves. -/
structure DrainFrame (bytes : List Byte) (s t : State) : Prop where
  wireIn : t.wireIn = s.wireIn ++ bytes
  wireOut : t.wireOut = s.wireOut
  txState : t.txState = s.txState
  txPkt : t.txPkt = s.txPkt
  txOff : t.txOff = s.txOff
  txCsum : t.txCsum = s.txCsum
  txq : t.txq = s.txq
  txrdyPending : t.txrdyPending = s.txrdyPending
  rxrdyPending : t.rxrdyPending = s.rxrdyPending
  irqTxEn : t.irqTxEn = s.irqTxEn
  irqRxEn : t.irqRxEn = s.irqRxEn
  result : s.result = .none → t.result = .none

theorem DrainFrame.refl (s : State) : DrainFrame [] s s := by
  constructor <;> simp

theorem DrainFrame.trans {xs ys : List Byte} {s t u : State} (h : DrainFrame xs s t) (h' : DrainFrame ys t u) :
    DrainFrame (xs ++ ys) s u where
  wireIn := by rw [h'.wireIn, h.wireIn, List.append_assoc]
  wireOut := h'.wireOut.trans h.wireOut
  txState := h'.txState.trans h.txState
  txPkt := h'.txPkt.trans h.txPkt
  txOff := h'.txOff.trans h.txOff
  txCsum := h'.txCsum.trans h.txCsum
  txq := h'.txq.trans h.txq
  txrdyPending := h'.txrdyPending.trans h.txrdyPending
  rxrdyPending := h'.rxrdyPending.trans h.rxrdyPending
  irqTxEn := h'.irqTxEn.trans h.irqTxEn
  irqRxEn := h'.irqRxEn.trans h.irqRxEn
  result := fun hs => h'.result (h.result hs)

/-- One turn of the loop reads its byte. -/
theorem drainFrame_byte {s t : State} {b : Byte} {rest : List Byte} (hi : s.initialised = true)
    (h : rxByte b (s.takeByte b rest) = .next t) : DrainFrame [b] s t := by
  have hframe := rxByte_frame h
  obtain ⟨hout, hin⟩ := rxByte_wire (s := s.takeByte b rest) hi h
  exact {
    wireIn := hin.trans (by rw [State.takeByte, State.wireIn_emit]; rfl)
    wireOut := hout.trans (by rw [State.takeByte, State.wireOut_emit, List.append_nil]; rfl)
    txState := hframe.txState
    txPkt := hframe.txPkt
    txOff := hframe.txOff
    txCsum := hframe.txCsum
    txq := hframe.txq
    txrdyPending := hframe.txrdyPending
    rxrdyPending := hframe.rxrdyPending
    irqTxEn := hframe.irqTxEn
    irqRxEn := hframe.irqRxEn
    result := fun _ => hframe.result }

theorem drainLoop_frame {n : Nat} {s t : State} (hi : s.initialised = true) (h : drainLoop n s = .next t) :
    DrainFrame (s.chanRxbuf.take n) s t := by
  induction n generalizing s with
  | zero =>
    obtain rfl : s = t := Host.Outcome.next.inj h
    exact DrainFrame.refl s
  | succ n ih =>
    cases hbuf : s.chanRxbuf with
    | nil =>
      obtain rfl : s = t := by simpa [drainLoop, hbuf] using h
      exact DrainFrame.refl s
    | cons b rest =>
      rw [drainLoop_succ hbuf] at h
      obtain ⟨u, hu, h⟩ := andThen_eq_next h
      have hframe := rxByte_frame hu
      have hrest := ih (hframe.initialised.trans hi) h
      rw [show u.chanRxbuf = rest from hframe.chanRxbuf] at hrest
      exact (drainFrame_byte hi hu).trans hrest

/-- RX.DRAIN reads every byte that waits and serves the event. -/
theorem rxDrain_frame {s t : State} (hr : s.ready = true) (hen : s.irqRxEn = true) (h : exec .rxDrain s = .next t) :
    DrainFrame s.chanRxbuf { s with rxrdyPending := false, result := .none } t := by
  rw [exec_rxDrain hr hen] at h
  obtain ⟨u, hu, h⟩ := andThen_eq_next h
  have hloop : DrainFrame (s.chanRxbuf.take s.chanRxbuf.length) { s with rxrdyPending := false, result := .none } u :=
    drainLoop_frame (s := (s.enterHandler .rxrdy).answer .none) (ready_initialised hr) hu
  rw [List.take_length] at hloop
  split at h
  · obtain ⟨-, h⟩ := whenReady_eq_next h
    obtain ⟨-, h⟩ := whenSelected_eq_next h
    cases h
    have hclear : DrainFrame [] u (u.clearOverrun.answer .none) := by
      constructor <;> simp [State.clearOverrun, State.wireIn, State.wireOut, State.emit, State.answer]
    simpa using hloop.trans hclear
  · cases h
    exact hloop

/-- Settles O27: the loop by its first byte; and the handler completes by the invariants, within its frame. -/
theorem drainConsumesEveryByteAndClearsOverrun : Obligations.DrainConsumesEveryByteAndClearsOverrun := by
  refine ⟨fun s b rest i hr hen hbuf hd => ?_, fun s h hen => ?_⟩
  · obtain rfl : rxInstr (s.takeByte b rest) b = i := Except.ok.inj hd
    rw [exec_rxDrain_cons hr hen hbuf, rxByte_eq_exec]
    rfl
  · obtain ⟨t, ht, -, hbuf, hovr⟩ := rxDrain_inv h hen
    have hf := rxDrain_frame h.ready hen ht
    exact ⟨t, ht, hbuf, hovr, hf.rxrdyPending, hf.wireIn, hf.wireOut, hf.txState, hf.txPkt, hf.txOff, hf.txCsum, hf.txq,
      hf.txrdyPending, hf.irqTxEn, hf.irqRxEn⟩

/-! ### The events -/

theorem exec_envTxrdy_of_disabled {s : State} (hr : s.ready = true) (hen : s.irqTxEn = false) :
    exec .envTxrdy s = .next { s with txrdyPending := true, result := .none } :=
  (whenReady_of_ready hr _).trans (if_neg (Bool.not_eq_true _ ▸ hen))

theorem exec_envTxrdy_of_enabled {s : State} (hr : s.ready = true) (hen : s.irqTxEn = true) :
    exec .envTxrdy s = exec s.txRow.instr { s with txrdyPending := true } := by
  have hadv : exec .envTxrdy s = txAdv (s.raiseEvent .txrdy) := (whenReady_of_ready hr _).trans (if_pos hen)
  rw [hadv, txAdv_eq_exec, txInstr_eq_instr]
  rfl

theorem exec_envRxrdy_of_disabled {s : State} (hr : s.ready = true) (hen : s.irqRxEn = false) :
    exec .envRxrdy s = .next { s with rxrdyPending := true, result := .none } :=
  (whenReady_of_ready hr _).trans (if_neg (Bool.not_eq_true _ ▸ hen))

theorem exec_envRxrdy_of_enabled {s : State} (hr : s.ready = true) (hen : s.irqRxEn = true) :
    exec .envRxrdy s = exec .rxDrain { s with rxrdyPending := true } :=
  (whenReady_of_ready hr _).trans (if_pos hen)

/-- From a state that meets the invariants, with the cell to send written, the row TX.ADV selects completes and serves the
event. -/
theorem advRow_completes {s : State} (h : Inv s) (hen : s.irqTxEn = true)
    (hcell : ∀ p o n, s.txState = .sendingBody → s.txPkt = some p → s.txOff = some o → s.packets.lenOf p = some n →
      o < n → s.packets.cell p o ≠ none) {row : TxRow} (hsel : RowSelected s row.instr) :
    ∃ t, exec row.instr s = .next t ∧ t.txrdyPending = false := by
  cases row with
  | idle => exact ⟨_, exec_txAdvIdle h.ready hen hsel, rfl⟩
  | sizecheck =>
    obtain ⟨p, n, -, -, -, -, hc⟩ := h.txInv.sendingSize hsel
    exact ⟨_, exec_txAdvSizecheck_of_some h.ready hen hsel hc, rfl⟩
  | body =>
    obtain ⟨hst, hnot⟩ := hsel
    obtain ⟨p, n, o, bytes, hp, ho, hn, -, hle, -, hc⟩ := h.txInv.sendingBody hst
    have hlt : o < n := Nat.lt_of_le_of_ne hle fun heq => hnot ⟨p, o, hp, ho, by rw [heq]; exact hn⟩
    obtain ⟨b, hb⟩ := Option.ne_none_iff_exists'.1 (hcell p o n hst hp ho hn hlt)
    exact ⟨_, exec_txAdvBody_of_some h.ready hen hst hp ho ((h.ownedTx p).2 hp) hn hlt hc hb, rfl⟩
  | trailer =>
    obtain ⟨hst, hend⟩ := hsel
    obtain ⟨p, n, o, bytes, hp, -, -, -, -, -, hc⟩ := h.txInv.sendingBody hst
    exact ⟨_, exec_txAdvTrailer_of_some h.ready hen hst hend hp hc ((h.ownedTx p).2 hp), rfl⟩

theorem txRow_instr_selected (s : State) : RowSelected s s.txRow.instr := by
  rw [← txInstr_eq_instr]
  exact txInstr_selected s

/-- Settles O45. -/
theorem transmitReadyIsServedOrHeld : Obligations.TransmitReadyIsServedOrHeld := by
  refine ⟨fun s => exec_envTxrdy_of_disabled, fun s i hr hen hd => ?_, fun s h hen hcell => ?_⟩
  · obtain rfl : txInstr s = i := Except.ok.inj hd
    rw [exec_envTxrdy_of_enabled hr hen, txInstr_eq_instr]
  · have hraised : Inv { s with txrdyPending := true } := h.with_minor rfl h.enables h.run
    rw [exec_envTxrdy_of_enabled h.ready hen]
    exact advRow_completes hraised hen hcell (txRow_instr_selected { s with txrdyPending := true })

/-- Settles O46. -/
theorem receiveReadyIsServedOrHeld : Obligations.ReceiveReadyIsServedOrHeld := by
  refine ⟨fun s => exec_envRxrdy_of_disabled, fun s => exec_envRxrdy_of_enabled, fun s h hen => ?_⟩
  have hraised : Inv { s with rxrdyPending := true } := h.with_minor rfl h.enables h.run
  obtain ⟨t, ht, -, hbuf, -⟩ := rxDrain_inv hraised hen
  exact ⟨t, (exec_envRxrdy_of_enabled h.ready hen).trans ht, (rxDrain_frame hraised.ready hen ht).rxrdyPending, hbuf⟩

end Sys2Proof.Machine
end

section
/-! PROOFS. The two machines side by side (`10_state.md` section 4): a row goes the same way whatever the registers of the
other machine hold, and so whatever the trace already holds and whatever bytes wait behind. -/

namespace Sys2Proof.Machine

/-! ### The state an operation answers, changed -/

/-- The outcome of an operation with the state it answers changed. -/
def mapNext (g : State → State) (r : Res) : Res := andThen r fun t => .next (g t)

section
variable (g : State → State)

@[simp] theorem mapNext_next (s : State) : mapNext g (.next s) = .next (g s) := rfl
@[simp] theorem mapNext_fault (e : Fault) : mapNext g (.fault e) = .fault e := rfl
@[simp] theorem mapNext_refused (e : Refusal) : mapNext g (.refused e) = .refused e := rfl

theorem mapNext_andThen (r : Res) (k : State → Res) : mapNext g (andThen r k) = andThen r fun t => mapNext g (k t) :=
  andThen_assoc r k _

theorem andThen_mapNext (r : Res) (k : State → Res) : andThen (mapNext g r) k = andThen r fun t => k (g t) :=
  andThen_assoc r _ k

theorem mapNext_whenReady (s : State) (r : Res) : mapNext g (whenReady s r) = whenReady s (mapNext g r) := by
  unfold whenReady
  split
  · rfl
  · split <;> rfl

theorem mapNext_whenSelected (b : Bool) (r : Res) : mapNext g (whenSelected b r) = whenSelected b (mapNext g r) := by
  unfold whenSelected
  split <;> rfl

/-- Operations that agree up to the change, one after the other. -/
theorem andThen_eq_mapNext {r r' : Res} {k k' : State → Res} (hr : r' = mapNext g r)
    (hk : ∀ t, k' (g t) = mapNext g (k t)) : andThen r' k' = mapNext g (andThen r k) := by
  rw [hr, andThen_mapNext, mapNext_andThen]
  exact andThen_congr fun t _ => hk t

end

/-! ### What no row of RX.BYTE reads -/

/-- The registers of TX, the transmit mark, events before the trace and bytes behind the buffer. -/
structure TxSide where
  txState : TxState
  txPkt : Option Handle
  txOff : Option Nat
  txCsum : Option Byte
  txrdyPending : Bool
  /-- Events before those of the trace. -/
  earlier : List Event
  /-- Bytes behind those of the buffer. -/
  waiting : List Byte

/-- A state with another TX side. -/
def State.beside (s : State) (x : TxSide) : State :=
  { s with
    txState := x.txState, txPkt := x.txPkt, txOff := x.txOff, txCsum := x.txCsum, txrdyPending := x.txrdyPending
    trace := x.earlier ++ s.trace, chanRxbuf := s.chanRxbuf ++ x.waiting }

section
variable (s : State) (x : TxSide)

@[simp] theorem State.beside_packets : (s.beside x).packets = s.packets := rfl

@[simp] theorem State.beside_rxPkt : (s.beside x).rxPkt = s.rxPkt := rfl

@[simp] theorem State.beside_rxOff : (s.beside x).rxOff = s.rxOff := rfl

@[simp] theorem State.beside_rxSize : (s.beside x).rxSize = s.rxSize := rfl

@[simp] theorem State.beside_accValue : (s.beside x).accValue .rx = s.accValue .rx := rfl

@[simp] theorem State.beside_emit (e : Event) : (s.beside x).emit e = (s.emit e).beside x := by
  simp [State.beside, State.emit]

@[simp] theorem State.beside_raise (e : ErrorOutcome) : (s.beside x).raise e = (s.raise e).beside x :=
  s.beside_emit x _

@[simp] theorem State.beside_answer (r : Result) : (s.beside x).answer r = (s.answer r).beside x := rfl

@[simp] theorem State.beside_accRead : (s.beside x).accRead .rx = (s.accRead .rx).beside x := by
  have hacc : (s.beside x).acc .rx = s.acc .rx := rfl
  unfold State.accRead
  rw [hacc]
  split <;> rfl

@[simp] theorem State.beside_accAdd (b : Byte) : (s.beside x).accAdd .rx b = (s.accAdd .rx b).beside x := by
  rw [State.accAdd, State.beside_accRead]
  rfl

@[simp] theorem State.beside_seedCandidate (b : Byte) : (s.beside x).seedCandidate b = (s.seedCandidate b).beside x :=
  rfl

@[simp] theorem State.beside_endReceive : (s.beside x).endReceive = s.endReceive.beside x := rfl

@[simp] theorem State.beside_storeAnswer (d : Nat) : (s.beside x).storeAnswer d = s.storeAnswer d := rfl

@[simp] theorem State.beside_spendAnswer : (s.beside x).spendAnswer = s.spendAnswer.beside x := by
  have hinput : (s.beside x).storeInput = s.storeInput := rfl
  unfold State.spendAnswer
  rw [hinput]
  split <;> rfl

@[simp] theorem State.beside_requestPacket (o : Owner) (d : Nat) :
    (s.beside x).requestPacket o d = (s.requestPacket o d).beside x := by
  unfold State.requestPacket
  rw [State.beside_storeAnswer, State.beside_spendAnswer]
  split
  · exact State.beside_emit { s.spendAnswer with packets := s.packets.obtain _ o (d + s.params.headerLength) } x _
  · exact State.beside_emit _ x _

@[simp] theorem State.beside_tryAddTail (p : Handle) :
    (s.beside x).tryAddTail .rxq p = (s.tryAddTail .rxq p).beside x := by
  have hroom : (s.beside x).hasRoom .rxq = s.hasRoom .rxq := rfl
  unfold State.tryAddTail
  rw [hroom]
  split
  · exact State.beside_emit (s.setQueue .rxq (s.queue .rxq ++ [p])) x _
  · exact State.beside_emit s x _

theorem State.beside_memWrite (o : Owner) (p : Handle) (i : Nat) (v : Byte) :
    (s.beside x).memWrite o p i v = mapNext (·.beside x) (s.memWrite o p i v) := by
  unfold State.memWrite
  rw [State.beside_packets]
  split
  · rfl
  · split
    · rfl
    · split <;> rfl

theorem State.beside_transfer (p : Handle) (src dst : Owner) :
    (s.beside x).transfer p src dst = mapNext (·.beside x) (s.transfer p src dst) := by
  unfold State.transfer
  rw [State.beside_packets]
  split <;> rfl

theorem State.beside_returnPacket (o : Owner) (p : Handle) :
    (s.beside x).returnPacket o p = mapNext (·.beside x) (s.returnPacket o p) := by
  unfold State.returnPacket
  rw [State.beside_packets]
  split
  · exact congrArg Host.Outcome.next (State.beside_emit { s with packets := s.packets.release p } x _)
  · rfl

theorem State.beside_runCallback (p : Handle) :
    (s.beside x).runCallback p = mapNext (·.beside x) (s.runCallback p) := by
  unfold State.runCallback
  rw [State.beside_packets]
  split
  · split
    · exact congrArg Host.Outcome.next (State.beside_emit s x _)
    · rfl
  · rfl

theorem rxRowRun_beside {row : RxRow} {b : Byte} {body : State → Res}
    (hbody : ∀ t, body (t.beside x) = mapNext (·.beside x) (body t)) :
    rxRowRun row b (s.beside x) body = mapNext (·.beside x) (rxRowRun row b s body) := by
  have hrow : (s.beside x).rxRow b = s.rxRow b := rfl
  rw [rxRowRun, rxRowRun, mapNext_whenReady, mapNext_whenSelected, hrow, State.beside_answer, hbody]
  rfl

/-- The nine rows of RX.BYTE go the same way on either TX side. -/
theorem exec_rxRow_beside (row : RxRow) (b : Byte) :
    exec (row.instr b) (s.beside x) = mapNext (·.beside x) (exec (row.instr b) s) := by
  cases row <;> simp only [RxRow.instr, exec]
  case idleAccept => exact rxRowRun_beside s x fun t => rfl
  case idleDiscard => exact rxRowRun_beside s x fun t => congrArg Host.Outcome.next (t.beside_raise x _)
  case awaitValid =>
    refine rxRowRun_beside s x fun t => ?_
    rw [State.beside_rxSize]
    cases t.rxSize with
    | none => rfl
    | some size =>
      simp only [State.beside_requestPacket, State.beside_accRead]
      rfl
  case awaitNobuf =>
    refine rxRowRun_beside s x fun t => ?_
    rw [State.beside_rxSize]
    cases t.rxSize with
    | none => rfl
    | some size =>
      simp only [State.beside_requestPacket, State.beside_accRead, State.beside_raise]
      rfl
  case awaitResync =>
    refine rxRowRun_beside s x fun t => ?_
    simp only [State.beside_accRead, State.beside_raise]
    rfl
  case bodyStore =>
    refine rxRowRun_beside s x fun t => ?_
    rw [State.beside_rxPkt, State.beside_rxOff]
    split
    · refine andThen_eq_mapNext _ (t.beside_memWrite x _ _ _ b) fun u => ?_
      simp only [State.beside_accAdd]
      rfl
    · rfl
  case bodyGood =>
    refine rxRowRun_beside s x fun t => ?_
    rw [State.beside_rxPkt]
    split
    · rw [State.beside_accRead]
      refine andThen_eq_mapNext _ (State.beside_runCallback _ x _) fun u => ?_
      rw [State.beside_tryAddTail]
      exact andThen_eq_mapNext _ (State.beside_transfer _ x _ _ _) fun v => rfl
    · rfl
  case bodyGoodQfull =>
    refine rxRowRun_beside s x fun t => ?_
    rw [State.beside_rxPkt]
    split
    · rw [State.beside_accRead]
      refine andThen_eq_mapNext _ (State.beside_runCallback _ x _) fun u => ?_
      rw [State.beside_tryAddTail, State.beside_raise]
      exact andThen_eq_mapNext _ (State.beside_returnPacket _ x _ _) fun v => rfl
    · rfl
  case bodyBad =>
    refine rxRowRun_beside s x fun t => ?_
    rw [State.beside_rxPkt]
    split
    · rw [State.beside_accRead, State.beside_raise, State.beside_accValue]
      exact andThen_eq_mapNext _ (State.beside_returnPacket _ x _ _) fun v => rfl
    · rfl

theorem rxByte_beside (b : Byte) : rxByte b (s.beside x) = mapNext (·.beside x) (rxByte b s) := by
  have hrow : (s.beside x).rxRow b = s.rxRow b := rfl
  rw [rxByte_eq_exec, rxByte_eq_exec, rxInstr_eq_instr, rxInstr_eq_instr, hrow]
  exact exec_rxRow_beside s x _ b

end

/-! ### What no row of TX reads -/

/-- The registers of RX. -/
structure RxSide where
  rxState : RxState
  rxPkt : Option Handle
  rxOff : Option Nat
  rxCsum : Option Byte
  rxSize : Option Byte

/-- A state with another RX side. -/
def State.besideRx (s : State) (x : RxSide) : State :=
  { s with rxState := x.rxState, rxPkt := x.rxPkt, rxOff := x.rxOff, rxCsum := x.rxCsum, rxSize := x.rxSize }

section
variable (s : State) (x : RxSide)

@[simp] theorem State.besideRx_packets : (s.besideRx x).packets = s.packets := rfl

@[simp] theorem State.besideRx_txPkt : (s.besideRx x).txPkt = s.txPkt := rfl

@[simp] theorem State.besideRx_txOff : (s.besideRx x).txOff = s.txOff := rfl

theorem State.besideRx_accRead : (s.besideRx x).accRead .tx = (s.accRead .tx).besideRx x := by
  have hacc : (s.besideRx x).acc .tx = s.acc .tx := rfl
  unfold State.accRead
  rw [hacc]
  split <;> rfl

theorem State.besideRx_accAdd (b : Byte) : (s.besideRx x).accAdd .tx b = (s.accAdd .tx b).besideRx x := by
  rw [State.accAdd, State.besideRx_accRead]
  rfl

theorem State.besideRx_returnPacket (o : Owner) (p : Handle) :
    (s.besideRx x).returnPacket o p = mapNext (·.besideRx x) (s.returnPacket o p) := by
  unfold State.returnPacket
  rw [State.besideRx_packets]
  split <;> rfl

theorem State.besideRx_transfer (p : Handle) (src dst : Owner) :
    (s.besideRx x).transfer p src dst = mapNext (·.besideRx x) (s.transfer p src dst) := by
  unfold State.transfer
  rw [State.besideRx_packets]
  split <;> rfl

theorem State.besideRx_releaseHeld (p : Handle) :
    (s.besideRx x).releaseHeld p = mapNext (·.besideRx x) (s.releaseHeld p) := by
  unfold State.releaseHeld
  rw [State.besideRx_txPkt]
  split
  · rfl
  · split
    · rfl
    · exact andThen_eq_mapNext _ (s.besideRx_returnPacket x _ _) fun t => rfl

theorem serveTx_besideRx {row : TxRow} {body : State → Res}
    (hbody : ∀ t, body (t.besideRx x) = mapNext (·.besideRx x) (body t)) :
    serveTx row (s.besideRx x) body = mapNext (·.besideRx x) (serveTx row s body) := by
  have hrow : (s.besideRx x).txRow = s.txRow := rfl
  have hen : (s.besideRx x).irqTxEn = s.irqTxEn := rfl
  have henter : ((s.besideRx x).enterHandler .txrdy).answer .none =
      ((s.enterHandler .txrdy).answer .none).besideRx x := rfl
  rw [serveTx, serveTx, mapNext_whenReady, mapNext_whenSelected, hrow, hen, henter, hbody]
  split <;> rfl

/-- The four rows of TX.ADV go the same way on either RX side. -/
theorem exec_advRow_besideRx (row : TxRow) :
    exec row.instr (s.besideRx x) = mapNext (·.besideRx x) (exec row.instr s) := by
  cases row <;> simp only [TxRow.instr, exec]
  case idle => exact serveTx_besideRx s x fun t => rfl
  case sizecheck =>
    refine serveTx_besideRx s x fun t => ?_
    simp only [State.besideRx_accAdd]
    rfl
  case body =>
    refine serveTx_besideRx s x fun t => ?_
    rw [State.besideRx_txPkt, State.besideRx_txOff]
    split
    · rename_i p o _ _
      have hread : (t.besideRx x).memRead .tx p o = t.memRead .tx p o := rfl
      rw [hread]
      split
      · simp only [State.besideRx_accAdd]
        rfl
      · rfl
    · rfl
  case trailer =>
    refine serveTx_besideRx s x fun t => ?_
    rw [State.besideRx_txPkt]
    split
    · simp only [State.besideRx_accRead]
      exact andThen_eq_mapNext _
        (State.besideRx_returnPacket ((t.accRead .tx).writeByte (t.accValue .tx)) x _ _) fun u => rfl
    · rfl

theorem exec_submitReject_besideRx (p : Option Handle) :
    exec (.txSubmitReject p) (s.besideRx x) = mapNext (·.besideRx x) (exec (.txSubmitReject p) s) := by
  have hrow : (s.besideRx x).submitRow p = s.submitRow p := rfl
  have hmay : (s.besideRx x).maySubmit = s.maySubmit := rfl
  simp only [exec, execTxSubmitReject]
  rw [mapNext_whenReady, hrow, hmay]
  refine congrArg (whenReady s) ?_
  split
  · rfl
  · rfl
  · split <;> rfl
  · rfl

theorem exec_submitAccept_besideRx (p : Handle) :
    exec (.txSubmitAccept p) (s.besideRx x) = mapNext (·.besideRx x) (exec (.txSubmitAccept p) s) := by
  have hrow : (s.besideRx x).submitRow (some p) = s.submitRow (some p) := rfl
  have hmay : (s.besideRx x).maySubmit p = s.maySubmit p := rfl
  simp only [exec, execTxSubmitAccept]
  rw [mapNext_whenReady, mapNext_whenSelected, hrow, hmay, State.besideRx_packets]
  refine congrArg (whenReady s) (congrArg (whenSelected _) ?_)
  split
  · split
    · refine andThen_eq_mapNext _ (s.besideRx_releaseHeld x p) fun t => ?_
      exact andThen_eq_mapNext _ (t.besideRx_transfer x p _ _) fun u => rfl
    · rfl
  · rfl

/-- The six rows of TX go the same way on either RX side. -/
theorem exec_txRow_besideRx {i : Instr} (hi : isTxRow i = true) :
    exec i (s.besideRx x) = mapNext (·.besideRx x) (exec i s) := by
  cases i
  case txSubmitReject p => exact exec_submitReject_besideRx s x p
  case txSubmitAccept p => exact exec_submitAccept_besideRx s x p
  case txAdvIdle => exact exec_advRow_besideRx s x .idle
  case txAdvSizecheck => exact exec_advRow_besideRx s x .sizecheck
  case txAdvBody => exact exec_advRow_besideRx s x .body
  case txAdvTrailer => exact exec_advRow_besideRx s x .trailer
  all_goals cases hi

/-- A row of TX leaves the RX side as it is. -/
theorem exec_txRow_keeps_rx {i : Instr} (hi : isTxRow i = true) {t : State} (ht : exec i s = .next t) :
    t.rxState = s.rxState ∧ t.rxPkt = s.rxPkt ∧ t.rxOff = s.rxOff ∧ t.rxCsum = s.rxCsum ∧ t.rxSize = s.rxSize := by
  have hown := exec_txRow_besideRx s ⟨s.rxState, s.rxPkt, s.rxOff, s.rxCsum, s.rxSize⟩ hi
  rw [ht] at hown
  have hkeep := Host.Outcome.next.inj (ht.symm.trans hown)
  rw [hkeep]
  exact ⟨rfl, rfl, rfl, rfl, rfl⟩

end

/-! ### The statements -/

/-- Settles O47: the other machine's registers are a side that the rows go beside. -/
theorem theTwoMachinesAreIndependent : Obligations.TheTwoMachinesAreIndependent := by
  refine ⟨fun i s s' t hi ht hs => ⟨exec_txRow_keeps_rx s hi ht, ?_⟩, fun i s s' t hi ht hs => ?_⟩
  · have hside := exec_txRow_besideRx s ⟨s'.rxState, s'.rxPkt, s'.rxOff, s'.rxCsum, s'.rxSize⟩ hi
    rw [ht] at hside
    rw [hs]
    exact hside
  · obtain ⟨row, b, rfl⟩ := eq_instr_of_isRxByteRow hi
    have hframe := rxByte_frame (rxByte_of_next row b ht)
    refine ⟨⟨hframe.txState, hframe.txPkt, hframe.txOff, hframe.txCsum⟩, ?_⟩
    have hside := exec_rxRow_beside s ⟨s'.txState, s'.txPkt, s'.txOff, s'.txCsum, s.txrdyPending, [], []⟩ row b
    rw [ht] at hside
    rw [hs]
    simpa [State.beside, ← hframe.txrdyPending] using hside

end Sys2Proof.Machine
end

section
/-! PROOFS. Runs of the two handlers in another order or another grouping (`42_receive.md` section 5, `60_exceptions.md`
section 2). -/

namespace Sys2Proof.Machine

/-! ### One drain or two -/

/-- The TX side of a state, with more bytes waiting. -/
def State.withWaiting (s : State) (ys : List Byte) : TxSide :=
  ⟨s.txState, s.txPkt, s.txOff, s.txCsum, s.txrdyPending, [], ys⟩

theorem State.beside_withWaiting (s : State) (ys : List Byte) :
    s.beside (s.withWaiting ys) = { s with chanRxbuf := s.chanRxbuf ++ ys } := rfl

/-- RX.BYTE goes the same way whatever waits behind. -/
theorem rxByte_of_waiting {b : Byte} {s t : State} {xs : List Byte} (hbuf : s.chanRxbuf = xs) (h : rxByte b s = .next t)
    (ys : List Byte) : rxByte b { s with chanRxbuf := xs ++ ys } = .next { t with chanRxbuf := xs ++ ys } := by
  have hframe := rxByte_frame h
  have hside : s.withWaiting ys = t.withWaiting ys := by
    simp [State.withWaiting, hframe.txState, hframe.txPkt, hframe.txOff, hframe.txCsum, hframe.txrdyPending]
  have hbuf' : t.chanRxbuf = xs := hframe.chanRxbuf.trans hbuf
  have hmore := s.beside_withWaiting ys
  have hmore' := t.beside_withWaiting ys
  rw [hbuf] at hmore
  rw [hbuf'] at hmore'
  rw [← hmore, rxByte_beside, h, mapNext_next, hside, hmore']

/-- RX.DRAIN serves the event and leaves its own result, so neither mark nor result matters. -/
theorem exec_rxDrain_served {s : State} (hr : s.ready = true) (hen : s.irqRxEn = true) (pending : Bool) (r : Result) :
    exec .rxDrain { s with rxrdyPending := pending, result := r } = exec .rxDrain s := by
  have hr' : State.ready { s with rxrdyPending := pending, result := r } = true := hr
  rw [exec_rxDrain hr hen, exec_rxDrain hr' hen]
  rfl

/-- Settles O29: by the bytes of the first run, each applied to the same state in either grouping. -/
theorem drainGroupingDoesNotMatter : Obligations.DrainGroupingDoesNotMatter := by
  intro s t xs ys hr hen hovr h
  induction xs generalizing s with
  | nil =>
    have hnone : ¬ s.chanOvr = true := by simp [hovr]
    rw [exec_rxDrain_of_empty (s := { s with chanRxbuf := [] }) hr hen rfl, if_neg hnone] at h
    cases h
    exact (exec_rxDrain_served (s := { s with chanRxbuf := ys }) hr hen false .none).symm
  | cons b xs ih =>
    rw [exec_rxDrain_cons (s := { s with chanRxbuf := b :: xs }) hr hen rfl] at h
    obtain ⟨u, hu, h⟩ := andThen_eq_next h
    have hframe := rxByte_frame hu
    have hbuf : u.chanRxbuf = xs := hframe.chanRxbuf
    have hself : { u with chanRxbuf := xs } = u := by rw [← hbuf]
    have hu' : rxByte b { State.takeByte { s with chanRxbuf := b :: (xs ++ ys) } b (xs ++ ys) with
        rxrdyPending := false, result := .none } = .next { u with chanRxbuf := xs ++ ys } :=
      rxByte_of_waiting rfl hu ys
    rw [List.cons_append, exec_rxDrain_cons (s := { s with chanRxbuf := b :: (xs ++ ys) }) hr hen rfl, hu', andThen_next]
    exact ih u (hframe.ready.trans hr) (hframe.irqRxEn.trans hen) (hframe.chanOvr.trans hovr) (by rwa [hself])

/-! ### RX.DRAIN beside TX -/

/-- RX.DRAIN goes the same way on either TX side. -/
theorem exec_rxDrain_beside {s : State} (hr : s.ready = true) (hen : s.irqRxEn = true) {x : TxSide} (hx : x.waiting = []) :
    exec .rxDrain (s.beside x) = mapNext (·.beside x) (exec .rxDrain s) := by
  generalize hbuf : s.chanRxbuf = bytes
  have hbuf' : (s.beside x).chanRxbuf = bytes := by rw [State.beside, hx, List.append_nil, hbuf]
  induction bytes generalizing s with
  | nil =>
    rw [exec_rxDrain_of_empty (s := s.beside x) hr hen hbuf', exec_rxDrain_of_empty hr hen hbuf, mapNext_next]
    have hovr : (s.beside x).chanOvr = s.chanOvr := rfl
    rw [hovr]
    split
    · simp [State.beside]
    · rfl
  | cons b rest ih =>
    rw [exec_rxDrain_cons (s := s.beside x) hr hen hbuf', exec_rxDrain_cons hr hen hbuf, mapNext_andThen]
    have htaken : { (s.beside x).takeByte b rest with rxrdyPending := false, result := .none } =
        State.beside { s.takeByte b rest with rxrdyPending := false, result := .none } x := by
      simp [State.beside, State.takeByte, State.emit, hx]
    rw [htaken, rxByte_beside, andThen_mapNext]
    refine andThen_congr fun t ht => ?_
    have hframe := rxByte_frame ht
    have hrest : t.chanRxbuf = rest := hframe.chanRxbuf
    exact ih (hframe.ready.trans hr) (hframe.irqRxEn.trans hen) hrest (by rw [State.beside, hx, List.append_nil, hrest])

/-! ### A row of TX beside RX.DRAIN -/

/-- What a row of TX.ADV that returns no packet puts in place of what it finds. -/
structure AdvEffect where
  txState : TxState
  txOff : Option Nat
  txCsum : Option Byte
  /-- What it writes to the wire. -/
  written : List Byte

/-- A state after such a row. -/
def State.advanced (s : State) (e : AdvEffect) : State :=
  { s with
    txState := e.txState, txOff := e.txOff, txCsum := e.txCsum, txrdyPending := false
    trace := s.trace ++ e.written.map Event.wireOut, result := .none }

theorem Memory.cell_congr {m m' : Memory} {p : Handle} (h : lookup p.id m' = lookup p.id m) (o : Nat) :
    m'.cell p o = m.cell p o := by
  rw [Memory.cell, Memory.cell, h]

/-- Two states that a row of TX.ADV does not tell apart. -/
structure SameTx (s b : State) : Prop where
  txState : b.txState = s.txState
  txPkt : b.txPkt = s.txPkt
  txOff : b.txOff = s.txOff
  txCsum : b.txCsum = s.txCsum
  packet : ∀ p, s.txPkt = some p → lookup p.id b.packets = lookup p.id s.packets

theorem SameTx.refl (s : State) : SameTx s s := ⟨rfl, rfl, rfl, rfl, fun _ _ => rfl⟩

theorem SameTx.txRow {s b : State} (h : SameTx s b) : b.txRow = s.txRow := by
  have hend : b.txAtEnd = s.txAtEnd := by
    unfold State.txAtEnd
    rw [h.txPkt, h.txOff]
    split
    · rename_i p o hp _
      rw [Memory.lenOf_congr (h.packet p hp)]
    · rfl
  rw [State.txRow, State.txRow, h.txState, hend]

/-- From a state that meets the invariants a row of TX.ADV but the trailer has one effect in all states it does not tell
apart from it. -/
theorem exists_advEffect {s a : State} (h : Inv s) {row : TxRow} (hrow : row ≠ .trailer)
    (ha : exec row.instr s = .next a) :
    ∃ e, ∀ b, SameTx s b → b.ready = true → b.irqTxEn = true → exec row.instr b = .next (b.advanced e) := by
  obtain ⟨hrs, hens, hsel⟩ := selected_of_advRow ha
  cases row with
  | idle =>
    refine ⟨⟨s.txState, s.txOff, s.txCsum, []⟩, fun b hb hr hen => ?_⟩
    rw [TxRow.instr, exec_txAdvIdle hr hen (hb.txState.trans hsel), State.advanced, ← hb.txState, ← hb.txOff, ← hb.txCsum]
    simp
  | sizecheck =>
    obtain ⟨p, n, -, -, -, -, hc⟩ := h.txInv.sendingSize hsel
    exact ⟨⟨.sendingBody, some 0, _, [_]⟩, fun b hb hr hen =>
      exec_txAdvSizecheck_of_some hr hen (hb.txState.trans hsel) (hb.txCsum.trans hc)⟩
  | body =>
    obtain ⟨hst, hnot⟩ := hsel
    obtain ⟨p, n, o, bytes, hp, ho, hn, -, hle, -, hc⟩ := h.txInv.sendingBody hst
    have hlt : o < n := Nat.lt_of_le_of_ne hle fun heq => hnot ⟨p, o, hp, ho, by rw [heq]; exact hn⟩
    have hown : s.packets.ownerOf p = .tx := (h.ownedTx p).2 hp
    cases hv : s.packets.cell p o with
    | none =>
      rw [TxRow.instr, exec_txAdvBody hrs hens hst hp ho hown hn hlt, hv] at ha
      cases ha
    | some v =>
      refine ⟨⟨.sendingBody, some (o + 1), some (accByte (checksumOf bytes) v), [v]⟩, fun b hb hr hen => ?_⟩
      have hpacket := hb.packet p hp
      rw [TxRow.instr, exec_txAdvBody_of_some hr hen (hb.txState.trans hst) (hb.txPkt.trans hp) (hb.txOff.trans ho)
        ((Memory.ownerOf_congr hpacket).trans hown) ((Memory.lenOf_congr hpacket).trans hn) hlt (hb.txCsum.trans hc)
        ((Memory.cell_congr hpacket o).trans hv), State.advanced, ← hst, ← hb.txState]
      rfl
  | trailer => exact absurd rfl hrow

/-- RX.DRAIN keeps what TX.ADV reads. -/
theorem sameTx_of_rxDrain {s b : State} (h : Inv s) (hen : s.irqRxEn = true) (hb : exec .rxDrain s = .next b) :
    SameTx s b where
  txState := (rxDrain_frame h.ready hen hb).txState
  txPkt := (rxDrain_frame h.ready hen hb).txPkt
  txOff := (rxDrain_frame h.ready hen hb).txOff
  txCsum := (rxDrain_frame h.ready hen hb).txCsum
  packet p hp := (exec_reaches .rxDrain s b hb).lookup_eq (by rw [(h.ownedTx p).2 hp]; rfl)

/-! ### Either order -/

/-- The state with its trace taken away, and the TX side that gives it back. -/
def State.txSide (s : State) : TxSide :=
  ⟨s.txState, s.txPkt, s.txOff, s.txCsum, s.txrdyPending, s.trace, []⟩

theorem State.beside_txSide (s : State) : State.beside { s with trace := [] } s.txSide = s := by
  simp [State.beside, State.txSide]

/-- After a row of TX.ADV only the TX side and the result are others. -/
theorem State.beside_txSide_advanced (s : State) (e : AdvEffect) :
    { s.advanced e with rxrdyPending := s.rxrdyPending, result := s.result } =
      State.beside { s with trace := [] } (s.advanced e).txSide := by
  simp [State.beside, State.txSide, State.advanced]

theorem State.wireOut_advanced (s : State) (e : AdvEffect) : (s.advanced e).wireOut = s.wireOut ++ e.written := by
  simp [State.wireOut, State.advanced]

theorem State.wireIn_advanced (s : State) (e : AdvEffect) : (s.advanced e).wireIn = s.wireIn := by
  simp [State.wireIn, State.advanced]

theorem State.wireOut_beside_txSide (d t : State) : (d.beside t.txSide).wireOut = t.wireOut ++ d.wireOut := by
  simp [State.wireOut, State.beside, State.txSide]

theorem State.wireIn_beside_txSide (d t : State) : (d.beside t.txSide).wireIn = t.wireIn ++ d.wireIn := by
  simp [State.wireIn, State.beside, State.txSide]

/-- Settles O48: RX.DRAIN goes the same way beside the row's effect on TX, and the row has one effect before it and after. -/
theorem handlerOrderDoesNotMatter : Obligations.HandlerOrderDoesNotMatter := by
  intro s a i h hen hrx hd hi ha
  obtain rfl : s.txRow.instr = i := Except.ok.inj hd
  have hrow : s.txRow ≠ .trailer := fun heq => hi (by rw [heq]; rfl)
  obtain ⟨e, he⟩ := exists_advEffect h hrow ha
  obtain rfl : s.advanced e = a := Host.Outcome.next.inj ((he s (.refl s) h.ready hen).symm.trans ha)
  obtain ⟨b, hb, hbinv, -⟩ := rxDrain_inv h hrx
  have hsame := sameTx_of_rxDrain h hrx hb
  have hr₀ : State.ready { s with trace := [] } = true := h.ready
  have hra : (s.advanced e).ready = true := h.ready
  have hside := exec_rxDrain_beside hr₀ hrx (x := s.txSide) rfl
  rw [s.beside_txSide, hb] at hside
  obtain ⟨d, hd₀, hbd⟩ := andThen_eq_next hside.symm
  obtain rfl : d.beside s.txSide = b := Host.Outcome.next.inj hbd
  have hframe := rxDrain_frame hr₀ hrx hd₀
  have hab : exec .rxDrain (s.advanced e) = .next (d.beside (s.advanced e).txSide) := by
    rw [← exec_rxDrain_served hra hrx s.rxrdyPending s.result, s.beside_txSide_advanced e,
      exec_rxDrain_beside hr₀ hrx rfl, hd₀, mapNext_next]
  have hquiet : d.wireOut = [] := hframe.wireOut
  have hba := he _ hsame hbinv.ready (hframe.irqTxEn.trans hen)
  refine ⟨_, _, _, hab, hb, ?_, hba, ?_, ?_, ?_, ?_⟩
  · exact congrArg Except.ok (congrArg TxRow.instr hsame.txRow)
  · simp [State.advanced, State.beside, State.txSide, hframe.result]
  · have hp := List.perm_append_comm (l₁ := d.trace) (l₂ := e.written.map Event.wireOut)
    simpa [State.advanced, State.beside, State.txSide] using hp.append_left s.trace
  · rw [State.wireOut_advanced, State.wireOut_beside_txSide, State.wireOut_beside_txSide, State.wireOut_advanced, hquiet,
      List.append_nil, List.append_nil]
  · rw [State.wireIn_advanced, State.wireIn_beside_txSide, State.wireIn_beside_txSide, State.wireIn_advanced]

end Sys2Proof.Machine
end

section
/-! PROOFS. Whole frames (`41_transmit.md` section 4, `42_receive.md` section 7): the runs of TX.FRAME and RX.FEED, one step
for each byte, through the states in which part of the payload has been sent or stored. -/

namespace Sys2Proof.Machine

/-! ### Runs of a program -/

/-- The run of the machine, over its own type of states. -/
def runFor : Nat → State → Res
  | 0, s => .next s
  | k + 1, s => andThen (step s) (runFor k)

theorem core_run (k : Nat) (s : State) : core.run k s = runFor k s := by
  induction k generalizing s with
  | zero => rfl
  | succ k ih =>
    have hstep : core.step s = step s := rfl
    simp only [Host.Core.run, hstep, runFor]
    cases step s with
    | next t => exact ih t
    | fault _ => rfl
    | refused _ => rfl

section
variable {s t : State} {k : Nat}

theorem runFor_call {c : Call} {i : Instr} (hd : decode s c = .ok i) (h : exec i s = .next t) :
    runFor (k + 1) { s with program := .call c :: s.program } = runFor k t := by
  have hself : { s with program := s.program } = s := rfl
  rw [runFor, step_of_program rfl, hself, perform_call_of_ok hd, h, andThen_next]

/-- A step of TX.ADV, by the row that runs. -/
theorem runFor_txAdv (row : TxRow) (h : exec row.instr s = .next t) :
    runFor (k + 1) { s with program := .call ⟨.txAdv, []⟩ :: s.program } = runFor k t := by
  obtain ⟨body, hbody⟩ := exists_txRow_body row
  obtain ⟨-, hrow, -, -⟩ := serveTx_eq_next ((hbody s).symm.trans h)
  exact runFor_call (congrArg (fun r => Except.ok (TxRow.instr r)) hrow) h

/-- A step of RX.BYTE, by the row that runs. -/
theorem runFor_rxByte (row : RxRow) {b : Byte} (h : exec (row.instr b) s = .next t) :
    runFor (k + 1) { s with program := .call ⟨.rxByte, [b]⟩ :: s.program } = runFor k t := by
  have h' := rxByte_of_next row b h
  rw [rxByte_eq_exec] at h'
  exact runFor_call rfl h'

end

/-! ### The payload of a packet -/

theorem lookup_of_cellsFrom {cells : List Host.Cell} {sent more : List Byte} {b : Byte} {i n : Nat}
    (h : cellsFrom cells i n = some (sent ++ b :: more)) : lookup (i + sent.length) cells = some b := by
  induction sent generalizing i n with
  | nil =>
    cases n with
    | zero => cases h
    | succ n =>
      unfold cellsFrom at h
      split at h
      · rename_i c cs hc _
        obtain ⟨rfl, -⟩ := List.cons.inj (Option.some.inj h)
        exact hc
      · cases h
  | cons a sent ih =>
    cases n with
    | zero => cases h
    | succ n =>
      unfold cellsFrom at h
      split at h
      · rename_i c cs _ hcs
        obtain ⟨-, rfl⟩ := List.cons.inj (Option.some.inj h)
        rw [List.length_cons, Nat.add_comm sent.length, ← Nat.add_assoc]
        exact ih hcs
      · cases h

theorem Memory.exists_lookup_of_payload {m : Memory} {p : Handle} {P : List Byte} (h : m.payload p = some P) :
    ∃ k, lookup p.id m = some k ∧ cellsFrom k.cells 0 k.len = some P := by
  unfold Memory.payload at h
  split at h
  · exact ⟨_, ‹_›, h⟩
  · cases h

theorem Memory.lenOf_of_payload {m : Memory} {p : Handle} {P : List Byte} (h : m.payload p = some P) :
    m.lenOf p = some P.length := by
  obtain ⟨k, hk, hcells⟩ := Memory.exists_lookup_of_payload h
  rw [Memory.lenOf, hk, cellsFrom_length hcells]

theorem Memory.cell_of_payload {m : Memory} {p : Handle} {sent more : List Byte} {b : Byte}
    (h : m.payload p = some (sent ++ b :: more)) : m.cell p sent.length = some b := by
  obtain ⟨k, hk, hcells⟩ := Memory.exists_lookup_of_payload h
  simpa [Memory.cell, hk] using lookup_of_cellsFrom hcells

theorem Memory.payload_setOwner (m : Memory) (p : Handle) (o : Owner) : (m.setOwner p o).payload p = m.payload p := by
  cases hk : lookup p.id m <;> simp [Memory.payload, Memory.setOwner, hk]

/-! ### TX.FRAME -/

/-- A number of runs of TX.ADV, and what is to come after them. -/
def advMoves (n : Nat) (rest : List Move) : List Move := List.replicate n (.call ⟨.txAdv, []⟩) ++ rest

theorem advMoves_add_one (n : Nat) (rest : List Move) : advMoves (n + 1) rest = advMoves n (advMoves 1 rest) := by
  simp [advMoves, List.replicate_succ']

/-- The state in which TX has sent Size, SizeCheck and the bytes `sent` of the payload `P` of a packet. -/
def State.sentBody (s : State) (p : Handle) (P sent : List Byte) (rest : List Move) : State :=
  { s with
    txState := .sendingBody, txPkt := some p, txOff := some sent.length, txCsum := some (checksumOf sent)
    txrdyPending := false, packets := s.packets.setOwner p .tx
    trace := s.trace ++ (sizeByte P.length :: complByte (sizeByte P.length) :: sent).map Event.wireOut
    result := .none, program := rest }

section
variable {s : State} {p : Handle} {P : List Byte} (hr : s.ready = true) (hen : s.irqTxEn = true)
  (hown : s.packets.ownerOf p ≠ .store) (hP : s.packets.payload p = some P)
include hr hen hown hP

theorem exec_txAdvBody_sentBody {sent more : List Byte} {b : Byte} (hsplit : P = sent ++ b :: more) (rest : List Move) :
    exec .txAdvBody (s.sentBody p P sent rest) = .next (s.sentBody p P (sent ++ [b]) rest) := by
  have hn : (s.packets.setOwner p .tx).lenOf p = some P.length := by
    rw [Memory.lenOf_setOwner, Memory.lenOf_of_payload hP]
  have hb : (s.packets.setOwner p .tx).cell p sent.length = some b := by
    rw [Memory.cell_setOwner, Memory.cell_of_payload (hsplit ▸ hP)]
  have ho : (s.packets.setOwner p .tx).ownerOf p = .tx := by simp [Memory.ownerOf_setOwner _ _ _ _ hown]
  have hlt : sent.length < P.length := by simp [hsplit]
  rw [exec_txAdvBody_of_some (s := s.sentBody p P sent rest) hr hen rfl rfl rfl ho hn hlt rfl hb]
  simp [State.sentBody, accByte_checksumOf]

theorem runFor_sentBody {sent more : List Byte} (hsplit : P = sent ++ more) (k : Nat) (rest : List Move) :
    runFor (more.length + k) (s.sentBody p P sent (advMoves more.length rest)) =
      runFor k (s.sentBody p P P rest) := by
  induction more generalizing sent with
  | nil =>
    obtain rfl : P = sent := by rw [hsplit, List.append_nil]
    simp [advMoves]
  | cons b more ih =>
    have hstep := exec_txAdvBody_sentBody hr hen hown hP hsplit (advMoves more.length rest)
    rw [List.length_cons, Nat.add_right_comm]
    exact (runFor_txAdv .body hstep).trans (ih (by rw [hsplit, List.append_assoc]; rfl))

end

/-- The state after an accepted submission of a packet of length `n` to a TX that holds none. -/
def State.submitted (s : State) (p : Handle) (n : Nat) (rest : List Move) : State :=
  { s with
    txState := .sendingSize, txPkt := some p, txCsum := some (sizeByte n), packets := s.packets.setOwner p .tx
    trace := s.trace ++ [.wireOut (sizeByte n)], result := .bit true, program := rest }

/-- The state after the last run of TX.ADV. -/
def State.frameSent (s : State) (p : Handle) (P : List Byte) (rest : List Move) : State :=
  { s with
    txState := .idle, txPkt := none, txOff := none, txCsum := none, txrdyPending := false
    packets := (s.packets.setOwner p .tx).release p
    trace := s.trace ++ (frame P).map Event.wireOut ++ [.storeRet p], result := .none, program := rest }

section
variable {s : State} {p : Handle} {P : List Byte} (hr : s.ready = true)
include hr

theorem exec_txSubmitAccept_submitted (hidle : s.txState = .idle) (hpkt : s.txPkt = none) (hmay : MaySubmit s p)
    (hP : s.packets.payload p = some P) (hmax : P.length < s.params.maxFrameSize) (rest : List Move) :
    exec (.txSubmitAccept p) { s with program := rest } = .next (s.submitted p P.length rest) := by
  have hrel := State.releaseHeld_of_none (s := { s with program := rest }) hpkt p
  rw [exec_txSubmitAccept (s := { s with program := rest }) hr hidle hmay (Memory.lenOf_of_payload hP) hmax,
    State.startFrame_of_releaseHeld hrel hmay.owner_ne.1]
  rfl

variable (hen : s.irqTxEn = true)
include hen

theorem exec_txAdvSizecheck_submitted (rest : List Move) :
    exec .txAdvSizecheck (s.submitted p P.length rest) = .next (s.sentBody p P [] rest) := by
  rw [exec_txAdvSizecheck_of_some (s := s.submitted p P.length rest) hr hen rfl rfl, accByte_complByte]
  simp [State.submitted, State.sentBody]
  rfl

theorem exec_txAdvTrailer_sentBody (hown : s.packets.ownerOf p ≠ .store) (hP : s.packets.payload p = some P)
    (hlen : P.length ≤ 252) (rest : List Move) :
    exec .txAdvTrailer (s.sentBody p P P rest) = .next (s.frameSent p P rest) := by
  have hn : (s.packets.setOwner p .tx).lenOf p = some P.length := by
    rw [Memory.lenOf_setOwner, Memory.lenOf_of_payload hP]
  have ho : (s.packets.setOwner p .tx).ownerOf p = .tx := by simp [Memory.ownerOf_setOwner _ _ _ _ hown]
  rw [exec_txAdvTrailer_of_some (s := s.sentBody p P P rest) hr hen rfl ⟨p, _, rfl, rfl, hn⟩ rfl rfl ho]
  simp [State.sentBody, State.frameSent, frame_eq_cons hlen]

end

/-- With TX idle and holding no packet before, what a whole frame leaves is what it found, but for the served mark. -/
theorem State.frameSent_of_idle {s : State} (hidle : s.txState = .idle) (hpkt : s.txPkt = none) (p : Handle)
    (P : List Byte) (rest : List Move) :
    s.frameSent p P rest = { s with
      txOff := none, txCsum := none, txrdyPending := false, packets := (s.frameSent p P rest).packets
      trace := s.trace ++ (frame P).map Event.wireOut ++ [.storeRet p], result := .none, program := rest } := by
  simp [State.frameSent, hidle, hpkt]

theorem State.goesToStore_frameSent (s : State) (p : Handle) (P : List Byte) (rest : List Move) :
    GoesToStore s.packets (s.frameSent p P rest).packets p := by
  obtain ⟨ho, hother⟩ := Memory.goesToStore_release (s.packets.setOwner p .tx) p
  exact ⟨ho, fun q hq => (hother q hq).trans (Memory.lookup_setOwner_ne hq _ _)⟩

/-- TX.FRAME(p) from a TX that is idle with no packet. -/
theorem runFor_txFrame {s : State} {p : Handle} {P : List Byte} (hr : s.ready = true) (hen : s.irqTxEn = true)
    (hidle : s.txState = .idle) (hpkt : s.txPkt = none) (hmay : MaySubmit s p) (hP : s.packets.payload p = some P)
    (hmax : P.length < s.params.maxFrameSize) (rest : List Move) :
    runFor (P.length + 3) { s with program := txFrame p P.length ++ rest } = .next (s.frameSent p P rest) := by
  have hown : s.packets.ownerOf p ≠ .store := hmay.owner_ne.1
  have hlen : P.length ≤ 252 := Nat.le_of_add_le_add_right (Params.size_fits_of_lt (ready_params hr) hmax)
  have hfits : ∀ n, s.packets.lenOf p = some n → n < s.params.maxFrameSize := fun n hn => by
    rwa [← Option.some.inj ((Memory.lenOf_of_payload hP).symm.trans hn)]
  have hd : decode s ⟨.txSubmit (some p), []⟩ = .ok (.txSubmitAccept p) :=
    decode_encode (.txSubmitAccept p) s ⟨hidle, hfits⟩
  calc runFor (P.length + 3) { s with program := txFrame p P.length ++ rest }
    _ = runFor (P.length + 2) (s.submitted p P.length (advMoves (P.length + 2) rest)) :=
      runFor_call (s := { s with program := advMoves (P.length + 2) rest }) hd (exec_txSubmitAccept_submitted hr hidle hpkt hmay hP hmax _)
    _ = runFor (P.length + 1) (s.sentBody p P [] (advMoves (P.length + 1) rest)) :=
      runFor_txAdv .sizecheck (exec_txAdvSizecheck_submitted hr hen _)
    _ = runFor 1 (s.sentBody p P P (advMoves 1 rest)) := by
      rw [advMoves_add_one]
      exact runFor_sentBody hr hen hown hP (List.nil_append P).symm 1 (advMoves 1 rest)
    _ = .next (s.frameSent p P rest) := runFor_txAdv .trailer (exec_txAdvTrailer_sentBody hr hen hown hP hlen _)

/-- Settles O16: the submission, the SizeCheck, the payload byte by byte, the trailer. -/
theorem txFrameEmitsExactlyTheFrame : Obligations.TxFrameEmitsExactlyTheFrame :=
  fun s p P rest hr hen hidle hpkt hmay hP hmax =>
    ⟨_, (core_run _ _).trans (runFor_txFrame hr hen hidle hpkt hmay hP hmax rest),
      s.frameSent_of_idle hidle hpkt p P rest, s.goesToStore_frameSent p P rest⟩

end Sys2Proof.Machine
end

section
/-! PROOFS. RX.FEED of a frame (`42_receive.md` section 7), and the round trip from one block to another. -/

namespace Sys2Proof.Machine

/-! ### The packet that is being filled -/

/-- A memory that differs from another by a packet of RX that holds the bytes received so far. -/
structure Filled (m₀ m : Memory) (p : Handle) (n : Nat) (stored : List Byte) : Prop where
  owner : m.ownerOf p = .rx
  len : m.lenOf p = some n
  cells : firstCells m p stored.length = some stored
  others : ∀ q, q ≠ p → lookup q.id m = lookup q.id m₀

theorem filled_obtain (m : Memory) (p : Handle) (n : Nat) : Filled m (m.obtain p .rx n) p n [] where
  owner := m.ownerOf_obtain_self p .rx n
  len := m.lenOf_obtain_self p .rx n
  cells := firstCells_zero (m.lenOf_obtain_self p .rx n)
  others _ hq := Memory.lookup_obtain_ne hq m .rx n

theorem Filled.setCell {m₀ m : Memory} {p : Handle} {n : Nat} {stored : List Byte} (h : Filled m₀ m p n stored)
    (b : Byte) : Filled m₀ (m.setCell p stored.length b) p n (stored ++ [b]) where
  owner := (m.ownerOf_setCell p p _ b).trans h.owner
  len := (m.lenOf_setCell p p _ b).trans h.len
  cells := by
    rw [List.length_append, List.length_singleton]
    exact firstCells_setCell_succ h.cells b
  others q hq := (Memory.lookup_setCell_ne hq m _ b).trans (h.others q hq)

theorem Filled.payload {m₀ m : Memory} {p : Handle} {P : List Byte} (h : Filled m₀ m p P.length P) :
    m.payload p = some P :=
  (payload_eq_firstCells h.len).trans h.cells

/-! ### RX.FEED -/

/-- The state in which RX holds a candidate Size. -/
def State.candidate (s : State) (b : Byte) (rest : List Move) : State :=
  { s with rxState := .awaitSizecheck, rxSize := some b, rxCsum := some b, result := .none, program := rest }

/-- The state in which RX has received Size, SizeCheck and the bytes `stored` of a payload of length `n`. -/
def State.receivedBody (s : State) (p : Handle) (n : Nat) (stored : List Byte) (m : Memory) (rest : List Move) :
    State :=
  { s with
    rxState := .receivingBody, rxPkt := some p, rxOff := some stored.length, rxSize := some (sizeByte n)
    rxCsum := some (checksumOf stored), packets := m
    trace := s.trace ++ [.storeReq (n - s.params.headerLength) (some p)], result := .none
    storeInput := s.storeInput.tail, freeCtr := s.freeCtrAfterAnswer, program := rest }

/-- The state after the Checksum of a frame. -/
def State.delivered (s : State) (p : Handle) (P : List Byte) (m : Memory) (rest : List Move) : State :=
  { s with
    rxState := .idle, rxPkt := none, rxOff := none, rxCsum := none, rxSize := none, rxq := s.rxq ++ [p]
    packets := m.setOwner p .rxq
    trace := s.trace ++ [.storeReq (P.length - s.params.headerLength) (some p), .callback s.rxCallback p P,
      .qAdd .rxq p true]
    result := .none, storeInput := s.storeInput.tail, freeCtr := s.freeCtrAfterAnswer, program := rest }

section
variable {s : State} {p : Handle} (hr : s.ready = true)
include hr

theorem exec_rxIdleAccept_candidate {b : Byte} (hidle : s.rxState = .idle) (hb : b.toNat < s.params.maxFrameSize)
    (rest : List Move) : exec (.rxIdleAccept b) { s with program := rest } = .next (s.candidate b rest) :=
  (rxIdleTakesACandidateOrDropsTheByte { s with program := rest } b hr hidle).1 hb

theorem exec_rxAwaitValid_candidate {n : Nat} (hn : n ≤ 252) (hmin : s.params.headerLength ≤ n)
    (hmax : n + 4 ≤ s.params.maxFrameSize) (hp : s.storeAnswer (n - s.params.headerLength) = some p)
    (rest : List Move) :
    exec (.rxAwaitValid (complByte (sizeByte n))) (s.candidate (sizeByte n) rest) =
      .next (s.receivedBody p n [] (s.packets.obtain p .rx n) rest) := by
  have hsize := sizeByte_toNat hn
  have hsum : (sizeByte n).toNat + (complByte (sizeByte n)).toNat = 255 := by
    rw [complByte_toNat, hsize]
    omega
  have hreq : (sizeByte n).toNat - s.params.headerLength - 3 = n - s.params.headerLength := by omega
  have hlen : (sizeByte n).toNat - 3 = n := by omega
  have hp' : (s.candidate (sizeByte n) rest).storeAnswer ((sizeByte n).toNat - s.params.headerLength - 3) = some p := by
    rw [hreq]
    exact hp
  have hmin' : 3 + s.params.headerLength ≤ (sizeByte n).toNat := by omega
  have hmax' : (sizeByte n).toNat < s.params.maxFrameSize := by omega
  rw [exec_rxAwaitValid_of_some (s := s.candidate (sizeByte n) rest) hr rfl rfl rfl hsum hmin' hmax' hp', hlen]
  have hreq' : (sizeByte n).toNat - (s.candidate (sizeByte n) rest).params.headerLength - 3 = n - s.params.headerLength :=
    hreq
  rw [hreq']
  rfl

theorem exec_rxBodyStore_receivedBody {n : Nat} {stored : List Byte} {m : Memory}
    (hm : Filled s.packets m p n stored) (hlt : stored.length < n) (b : Byte) (rest : List Move) :
    exec (.rxBodyStore b) (s.receivedBody p n stored m rest) =
      .next (s.receivedBody p n (stored ++ [b]) (m.setCell p stored.length b) rest) := by
  rw [exec_rxBodyStore_of_some (s := s.receivedBody p n stored m rest) hr rfl rfl rfl rfl hm.owner hm.len hlt b]
  simp [State.receivedBody, accByte_checksumOf]

theorem exec_rxBodyGood_receivedBody {P : List Byte} {m : Memory} (hm : Filled s.packets m p P.length P)
    (hroom : s.rxq.length < s.rxqCap) (rest : List Move) :
    exec (.rxBodyGood (checksumOf P)) (s.receivedBody p P.length P m rest) = .next (s.delivered p P m rest) := by
  rw [exec_rxBodyGood_of_some (s := s.receivedBody p P.length P m rest) hr rfl ⟨p, _, rfl, rfl, hm.len⟩ rfl rfl hm.owner
    hm.payload hroom]
  simp [State.receivedBody, State.delivered, State.endReceive]

/-- The body of a frame, byte by byte. -/
theorem runFor_receivedBody {n : Nat} {stored more : List Byte} {m : Memory} (hm : Filled s.packets m p n stored)
    (hn : n = stored.length + more.length) (k : Nat) (rest : List Move) :
    ∃ m', Filled s.packets m' p n (stored ++ more) ∧
      runFor (more.length + k) (s.receivedBody p n stored m (rxFeed more ++ rest)) =
        runFor k (s.receivedBody p n (stored ++ more) m' rest) := by
  induction more generalizing stored m with
  | nil => exact ⟨m, by rwa [List.append_nil], by simp [rxFeed]⟩
  | cons b more ih =>
    rw [List.length_cons] at hn
    obtain ⟨m', hm', hrun⟩ := ih (hm.setCell b) (by rw [List.length_append, List.length_singleton]; omega)
    rw [List.append_assoc, List.singleton_append] at hm' hrun
    refine ⟨m', hm', ?_⟩
    have hstep := exec_rxBodyStore_receivedBody hr hm (by omega) b (rxFeed more ++ rest)
    rw [List.length_cons, Nat.add_right_comm]
    exact (runFor_rxByte .bodyStore hstep).trans hrun

/-- RX.FEED of a frame from an RX that is idle. -/
theorem runFor_rxFeed {P : List Byte} (hidle : s.rxState = .idle) (hmin : s.params.headerLength ≤ P.length)
    (hmax : P.length + 4 ≤ s.params.maxFrameSize) (hp : s.storeAnswer (P.length - s.params.headerLength) = some p)
    (hroom : s.rxq.length < s.rxqCap) (rest : List Move) :
    ∃ m, Filled s.packets m p P.length P ∧
      runFor (P.length + 3) { s with program := rxFeed (frame P) ++ rest } = .next (s.delivered p P m rest) := by
  have hlen : P.length ≤ 252 :=
    Nat.le_of_add_le_add_right (Params.size_fits_of_lt (n := P.length) (ready_params hr) (by omega))
  have hsize : (sizeByte P.length).toNat < s.params.maxFrameSize := by
    rw [sizeByte_toNat hlen]
    omega
  obtain ⟨m, hm, hbody⟩ := runFor_receivedBody hr (more := P) (filled_obtain s.packets p P.length) (by simp) 1
    (rxFeed [checksumOf P] ++ rest)
  refine ⟨m, hm, ?_⟩
  have hmoves : rxFeed (frame P) ++ rest = .call ⟨.rxByte, [sizeByte P.length]⟩ ::
      .call ⟨.rxByte, [complByte (sizeByte P.length)]⟩ :: (rxFeed P ++ (rxFeed [checksumOf P] ++ rest)) := by
    simp [frame_eq_cons hlen, rxFeed]
  rw [hmoves]
  calc runFor (P.length + 3) _
    _ = runFor (P.length + 2) (s.candidate (sizeByte P.length) _) :=
      runFor_rxByte .idleAccept (exec_rxIdleAccept_candidate hr hidle hsize _)
    _ = runFor (P.length + 1) (s.receivedBody p P.length [] (s.packets.obtain p .rx P.length) _) :=
      runFor_rxByte .awaitValid (exec_rxAwaitValid_candidate hr hlen hmin hmax hp _)
    _ = runFor 1 (s.receivedBody p P.length P m (rxFeed [checksumOf P] ++ rest)) := hbody
    _ = .next (s.delivered p P m rest) := runFor_rxByte .bodyGood (exec_rxBodyGood_receivedBody hr hm hroom _)

end

theorem State.delivered_of_idle {s : State} (hidle : s.rxState = .idle) (hpkt : s.rxPkt = none) (p : Handle)
    (P : List Byte) (m : Memory) (rest : List Move) :
    s.delivered p P m rest = { s with
      rxOff := none, rxCsum := none, rxSize := none, rxq := s.rxq ++ [p], packets := (s.delivered p P m rest).packets
      trace := s.trace ++ [.storeReq (P.length - s.params.headerLength) (some p), .callback s.rxCallback p P,
        .qAdd .rxq p true]
      result := .none, storeInput := s.storeInput.tail, freeCtr := (s.delivered p P m rest).freeCtr
      program := rest } := by
  simp [State.delivered, hidle, hpkt]

theorem Filled.payload_setOwner {m₀ m : Memory} {p : Handle} {P : List Byte} (h : Filled m₀ m p P.length P) (o : Owner) :
    (m.setOwner p o).payload p = some P :=
  (m.payload_setOwner p o).trans h.payload

/-- Settles O30: the candidate, the pair, the payload byte by byte, the Checksum. -/
theorem receiverDeliversExactlyTheFramesPayload : Obligations.ReceiverDeliversExactlyTheFramesPayload := by
  intro s P p rest hr hidle hpkt hmin hmax hp hroom
  obtain ⟨m, hm, hrun⟩ := runFor_rxFeed hr hidle hmin hmax hp hroom rest
  have hstore : m.ownerOf p ≠ .store := by rw [hm.owner]; decide
  exact ⟨_, (core_run _ _).trans hrun, s.delivered_of_idle hidle hpkt p P m rest, hm.payload_setOwner .rxq,
    (Memory.ownerPasses_setOwner hstore .rxq).1 p |>.trans (if_pos rfl),
    fun q hq => (Memory.lookup_setOwner_ne hq m .rxq).trans (hm.others q hq)⟩

/-! ### From one block to another -/

theorem State.wireOut_frameSent (s : State) (p : Handle) (P : List Byte) (rest : List Move) :
    (s.frameSent p P rest).wireOut = s.wireOut ++ frame P := by
  simp [State.wireOut, State.frameSent]

/-- Settles O31: the bytes put on the wire are the frame, and the receiver is fed the frame. -/
theorem roundTripDeliversTheSamePayload : Obligations.RoundTripDeliversTheSamePayload := by
  intro s r p q P hr hen hidle hpkt hmay hP hr' hparams hidle' hpkt' hmin hmax hq hroom
  have hsent := runFor_txFrame hr hen hidle hpkt hmay hP (by omega) []
  rw [← hparams] at hmin hmax
  obtain ⟨m, hm, hrun⟩ := runFor_rxFeed hr' hidle' hmin hmax hq hroom []
  rw [List.append_nil] at hsent hrun
  rw [← frame_length] at hrun
  exact ⟨_, frame P, _, (core_run _ _).trans hsent, s.wireOut_frameSent p P [], (core_run _ _).trans hrun,
    hm.payload_setOwner .rxq, rfl, rfl⟩

end Sys2Proof.Machine
end
